-- ==== Sys2Proof/Word.lean ====
section
/-! DEFINITION. The words of the RL-640: bytes, 16-bit and 32-bit fields, frames as byte strings, levels. -/

namespace Sys2Proof

/-- One byte of a lane, of a frame or of the telemetry line. -/
abbrev Byte := BitVec 8

/-- A 16-bit field (a request's tag, R165). -/
abbrev Word16 := BitVec 16

/-- A 32-bit field: a station id (R16), plant time (R173), a check value (R147). -/
abbrev Word32 := BitVec 32

/-- A link frame as the bytes that cross the lane, header first (R147). -/
abbrev Frame := List Byte

/-- A level in tenths of a decibel, exact (00_scope.md, Quantities). -/
abbrev Level := Int

/-- A sparse table: (number, record) pairs, numbers strictly rising. -/
abbrev Table (α : Type) := List (Nat × α)

end Sys2Proof
end

