-- ==== Sys2Proof/Machine/Types.lean ====
section
/-! DEFINITION. The value types of the RL-640: enumerations, table entries, records, queue entries, request and
response contents, each as the chapter of spec/ that owns it names its fields. No behaviour stands here. -/

namespace Sys2Proof.Machine

/-- The two receive lanes (R146): the node-side lane carries hub-bound traffic, the hub-side lane node-bound traffic. -/
inductive Lane where
  | nodeSide
  | hubSide
  deriving DecidableEq, Repr

/-! ## Plant map (spec/01_the_plant_map.md) -/

/-- Element kinds (R1). -/
inductive ElementKind where
  | node
  | port
  | amplifier
  | splitter
  | coupler
  | tap
  | lineEnd
  deriving DecidableEq, Repr

/-- One element record (R1); its number is its key in the element table. -/
structure Element where
  kind : ElementKind
  parent : Option Nat
  delay : Nat
  tapPorts : Option (Fin 256)
  legAddress : Nat
  deriving DecidableEq, Repr

/-- Map states (R2). -/
inductive MapState where
  | empty
  | edit
  | ready
  deriving DecidableEq, Repr

/-- Reasons of a failed validation, in the order of the checks (R12). -/
inductive MapReason where
  | rootInvalid
  | secondNode
  | parentMissing
  | portNotOnRoot
  | depthExceeded
  | lineEndHasChild
  | tapPortsInvalid
  | legAddressDuplicate
  | legCountExceeded
  | legNestingExceeded
  | legFanoutExceeded
  deriving DecidableEq, Repr

/-- A validation error: element number and reason (R2). -/
structure MapError where
  element : Nat
  reason : MapReason
  deriving DecidableEq, Repr

/-- Validity of an attachment entry (R16). -/
inductive Validity where
  | valid
  | stale
  deriving DecidableEq, Repr

/-- One occupied attachment entry (R16); its index is its key. -/
structure Attachment where
  station : Word32
  element : Nat
  port : Nat
  drop : Nat
  validity : Validity
  deriving DecidableEq, Repr

/-- The plant map block: element table, map state, validation error, attachment table, and whether a close
operation is in progress (R1, R2, R10, R16). -/
structure PlantMap where
  state : MapState
  elements : Table Element
  error : Option MapError
  closing : Bool
  attachments : Table Attachment
  deriving DecidableEq, Repr

/-! ## Echo analysis (spec/02_equalizer_echo_analysis.md) -/

/-- Rate classes 5.12, 2.56 and 1.28 Msym/s (R23). -/
inductive RateClass where
  | r512
  | r256
  | r128
  deriving DecidableEq, Repr

/-- One channel table entry (R23). -/
structure Channel where
  enabled : Bool
  rate : RateClass
  threshold : Nat
  deriving DecidableEq, Repr

/-- One entry of the descriptor queue (R25): station id, channel field and the 24 taps as (I, Q). -/
structure Descriptor where
  station : Word32
  channel : Nat
  taps : List (Int × Int)
  deriving DecidableEq, Repr

/-- What placement returns (R45 to R48). -/
inductive PlacementResult where
  | placed
  | drop
  | span
  | beyond
  deriving DecidableEq, Repr

/-- The outcomes of an analysis (R29, R31, R42). -/
inductive AnalysisOutcome where
  | mapNotReady
  | channelOff
  | unknownStation
  | suppressed
  | eqInvalid
  | clean
  | result (r : PlacementResult)
  deriving DecidableEq, Repr

/-- The echo arithmetic's figures (R37 to R41). -/
structure EchoFigures where
  tap : Nat
  ratio : Nat
  offset16 : Int
  delay16 : Int
  time : Int
  deriving DecidableEq, Repr

/-- What an analysis has come to at its beginning: an outcome fixed (R29), or an echo with the attachment noted (R29, R31). -/
inductive AnalysisStage where
  | fixed (o : AnalysisOutcome)
  | echo (index element port : Nat) (figures : EchoFigures)
  deriving DecidableEq, Repr

/-- The analysis in progress (R28): the channel values it took, whether the map has left READY since it began (R31),
and its stage. -/
structure Analysis where
  taken : Option Channel
  mapLeft : Bool
  stage : AnalysisStage
  deriving DecidableEq, Repr

/-- The thirteen intake counters (R32). -/
structure IntakeCounters where
  accepted : Nat
  notAnalysed : Nat
  malformed : Nat
  mapNotReady : Nat
  channelOff : Nat
  unknownStation : Nat
  suppressed : Nat
  eqInvalid : Nat
  clean : Nat
  placed : Nat
  drop : Nat
  span : Nat
  beyond : Nat
  deriving DecidableEq, Repr

/-- The latest echo record (R33). -/
structure LatestEcho where
  station : Word32
  channel : Nat
  figures : EchoFigures
  result : PlacementResult
  deriving DecidableEq, Repr

/-- The echo analysis block. -/
structure Echo where
  channels : List Channel
  queue : List Descriptor
  analysis : Option Analysis
  counters : IntakeCounters
  latest : Option LatestEcho
  deriving DecidableEq, Repr

/-! ## Suspect tally (spec/03_echo_placement_and_the_suspect_tally.md) -/

/-- Places, in the order AT, SPAN, DROP (R49, R53). -/
inductive Place where
  | at
  | span
  | drop
  deriving DecidableEq, Repr

/-- Record states (R50). -/
inductive SuspectState where
  | watch
  | suspect
  deriving DecidableEq, Repr

/-- One tally record (R49); its slot is its key in the record table. -/
structure TallyRecord where
  element : Nat
  place : Place
  votes : Nat
  voters : List Nat
  state : SuspectState
  coincident : Bool
  strongest : Nat
  firstVote : Word32
  lastVote : Word32
  deriving DecidableEq, Repr

/-- The suspect tally block: records by slot, overflow and replacement counts (R55), and the moment the aging
timer next expires on the elapsed-time base, in ms (R59). -/
structure Tally where
  records : Table TallyRecord
  overflow : Nat
  replacement : Nat
  agingDue : Nat
  deriving DecidableEq, Repr

/-- The tally summary (R63). -/
structure TallySummary where
  records : Nat
  suspects : Nat
  coincident : Nat
  promote : Nat
  overflow : Nat
  replacement : Nat
  deriving DecidableEq, Repr

/-! ## Sweep intake (spec/04_spectrum_sweeps_and_level_correction.md) -/

/-- The assembly (R68). -/
inductive Assembly where
  | idle
  | assembling (sweep next : Nat) (levels : List Level)
  deriving DecidableEq, Repr

/-- Discard reasons (R69). -/
inductive DiscardReason where
  | restarted
  | outOfOrder
  | wrongSweep
  | malformed
  | badCrc
  | lockLost
  deriving DecidableEq, Repr

/-- The latest sweep record (R77). -/
structure LatestSweep where
  sweep : Nat
  clampCount : Nat
  time : Word32
  deriving DecidableEq, Repr

/-- One correction entry (R75). -/
structure Correction where
  gain : Nat
  offset : Int
  deriving DecidableEq, Repr

/-- The sweep intake block with its five counters (R80). -/
structure Sweep where
  assembly : Assembly
  corrections : List Correction
  complete : Nat
  incomplete : Nat
  orphan : Nat
  malformed : Nat
  clamped : Nat
  lastDiscard : Option DiscardReason
  latest : Option LatestSweep
  deriving DecidableEq, Repr

/-! ## Band watch (spec/05_band_watch.md) -/

/-- Event modes (R81). -/
inductive EventMode where
  | declareOnly
  | both
  deriving DecidableEq, Repr

/-- One band table entry (R81). -/
structure Band where
  enabled : Bool
  start : Nat
  stop : Nat
  floor : Level
  declareMargin : Int
  clearMargin : Int
  minBins : Nat
  declareCount : Nat
  clearCount : Nat
  mode : EventMode
  deriving DecidableEq, Repr

/-- Band states (R85). -/
inductive BandState where
  | clear
  | declared
  deriving DecidableEq, Repr

/-- The live state of one band (R85). -/
structure BandLive where
  state : BandState
  hotRun : Nat
  coldRun : Nat
  burst : Nat
  longest : Nat
  hotCount : Nat
  lastCount : Nat
  lastLongest : Nat
  declares : Nat
  peak : Option Level
  deriving DecidableEq, Repr

/-- One band: its entry and its live state beside it. -/
structure BandSlot where
  entry : Band
  live : BandLive
  deriving DecidableEq, Repr

/-- The band watch block: 32 bands, the last transfer time (R95), and the interval timer's next expiry on the
elapsed-time base, in ms, absent while it does not run (R94). -/
structure BandWatch where
  bands : List BandSlot
  lastTransfer : Option Word32
  intervalDue : Option Nat
  deriving DecidableEq, Repr

/-! ## Telemetry (spec/06_leg_units_and_the_telemetry_line.md) -/

/-- Tracking states (R107). -/
inductive TrackState where
  | pass
  | stepSent
  | stepped
  | releaseSent
  | unconfirmed
  deriving DecidableEq, Repr

/-- Requesters of transactions and owners of entries (R106, R107). -/
inductive Requester where
  | search
  | direct
  deriving DecidableEq, Repr

/-- One leg tracking entry (R107); its leg address is its key. `retained` marks the retained entry (R119).
The lapse deadline is in ms of the elapsed-time base. -/
structure TrackEntry where
  state : TrackState
  owner : Option Requester
  deadline : Option Nat
  reachable : Bool
  timeouts : Nat
  failures : Nat
  lastReply : Option Word32
  retained : Bool
  deriving DecidableEq, Repr

/-- Telemetry commands (R104). -/
inductive TlmCommand where
  | step (level hold : Nat)
  | release
  | query
  deriving DecidableEq, Repr

/-- Reply kinds (R104). -/
inductive ReplyCode where
  | ackStep
  | ackRelease
  | releasedAlready
  | state
  deriving DecidableEq, Repr

/-- What a valid reply carries (R104, R118): its kind, and the unit's state, level code and remaining hold bytes. -/
structure Reply where
  code : ReplyCode
  unitState : Byte
  level : Byte
  hold : Byte
  deriving DecidableEq, Repr

/-- The transaction in progress (R106); `sentAt` and `watchdog` are moments on the elapsed-time base, in ms. -/
structure Transaction where
  address : Nat
  command : TlmCommand
  requester : Requester
  sentAt : Nat
  watchdog : Nat
  deriving DecidableEq, Repr

/-- The search's pending request at the controller (R114), not yet started. -/
structure SearchRequest where
  address : Nat
  command : TlmCommand
  deriving DecidableEq, Repr

/-- One entry of the direct queue (R115). -/
structure DirectEntry where
  address : Nat
  command : TlmCommand
  tag : Word16
  deriving DecidableEq, Repr

/-- The telemetry controller block. `assembling` holds the bytes of the reply frame being assembled (R105), `line` those
of the command frame last sent on the telemetry line (R106). -/
structure Telemetry where
  entries : Table TrackEntry
  transaction : Option Transaction
  searchRequest : Option SearchRequest
  directQueue : List DirectEntry
  assembling : List Byte
  line : List Byte
  sent : Nat
  timeout : Nat
  ignored : Nat
  deriving DecidableEq, Repr

/-! ## Ingress search (spec/07_ingress_search.md) -/

/-- The states of a running search (R122); IDLE is the absence of a search record. -/
inductive RunState where
  | baseline
  | stepping
  | settle
  | measure
  | releasing
  | releaseWait
  | ending
  deriving DecidableEq, Repr

/-- Classes of a leg (R134). -/
inductive LegClass where
  | full
  | partialDrop
  | noDrop
  | unknown
  deriving DecidableEq, Repr

/-- One leg of the level list (R122): element, leg address, and class with drop once classified. -/
structure Leg where
  element : Nat
  address : Nat
  cls : Option LegClass
  drop : Option Int
  deriving DecidableEq, Repr

/-- One entry of the secondary list (R136). -/
structure Secondary where
  element : Nat
  cls : LegClass
  drop : Int
  deriving DecidableEq, Repr

/-- Outcomes of a search (R141). -/
inductive SearchOutcome where
  | localized
  | split
  | inconclusive
  | ingressGone
  | aborted
  | linkLost
  deriving DecidableEq, Repr

/-- The search record of a running search (R122). `measureDeadline` is in ms of the elapsed-time base. -/
structure SearchRecord where
  state : RunState
  band : Nat
  level : Nat
  step : Int
  k : Nat
  sk : Nat
  hold : Nat
  mFull : Int
  mLow : Int
  number : Nat
  startTime : Word32
  head : Nat
  legs : List Leg
  current : Nat
  peakSum : Int
  collected : Nat
  baseline : Option Int
  settle : Nat
  measureDeadline : Option Nat
  path : List Nat
  secondary : List Secondary
  unknowns : List Nat
  measured : Nat
  cause : Option SearchOutcome
  deriving DecidableEq, Repr

/-- One entry of a coincidence list (R62). -/
structure CoincidentKey where
  element : Nat
  place : Place
  deriving DecidableEq, Repr

/-- One result record (R141). -/
structure SearchResult where
  number : Nat
  band : Nat
  level : Nat
  outcome : SearchOutcome
  head : Nat
  path : List Nat
  secondary : List Secondary
  unknowns : List Nat
  coincidence : List CoincidentKey
  measured : Nat
  startTime : Word32
  endTime : Word32
  deriving DecidableEq, Repr

/-- The ingress search block: the record (absent in IDLE), the result log oldest first, the next result number (R142). -/
structure Search where
  record : Option SearchRecord
  log : List SearchResult
  nextNumber : Nat
  deriving DecidableEq, Repr

/-! ## Reports and alarm lines (spec/10_reports_and_alarm_lines.md) -/

/-- Events toward the report slots (R185) with what their cause carries (R182). -/
inductive Event where
  | declare (band sweep : Nat) (peak : Level)
  | clear (band sweep : Nat)
  | newSuspect
  | tallyFull
  | searchEnd (number : Nat) (outcome : SearchOutcome)
  deriving DecidableEq, Repr

/-- The first cause of a trigger record (R182). -/
inductive Cause where
  | now
  | periodic
  | event (e : Event)
  deriving DecidableEq, Repr

/-- Report kinds (R180). -/
inductive ReportKind where
  | bandSummary
  | tallyTop
  | searchResult
  | linkCounters
  | legStates
  deriving DecidableEq, Repr

/-- Triggers (R180). -/
inductive Trigger where
  | now
  | periodic
  | onEvent
  deriving DecidableEq, Repr

/-- A set drawn from the five events (R180). -/
structure EventSet where
  declare : Bool
  clear : Bool
  newSuspect : Bool
  tallyFull : Bool
  searchEnd : Bool
  deriving DecidableEq, Repr

/-- One report slot entry (R180). -/
structure SlotEntry where
  enabled : Bool
  repeats : Bool
  kind : ReportKind
  trigger : Trigger
  period : Option Nat
  events : Option EventSet
  bandFilter : Option Nat
  deriving DecidableEq, Repr

/-- One report slot: its entry, and its period timer's next expiry in ms of the elapsed-time base while it runs (R184). -/
structure ReportSlot where
  entry : SlotEntry
  due : Option Nat
  deriving DecidableEq, Repr

/-- One queued slot with its trigger record (R182). -/
structure QueuedSlot where
  slot : Nat
  cause : Cause
  count : Nat
  deriving DecidableEq, Repr

/-- Alarm sources (R188). -/
inductive AlarmSource where
  | fixedLow
  | fixedHigh
  | anyBandDeclared
  | bandDeclared (n : Nat)
  | suspectPresent
  | searchActive
  | legStepped
  | linkDegraded
  | linkDown
  deriving DecidableEq, Repr

/-- Polarities (R188). -/
inductive Polarity where
  | activeHigh
  | activeLow
  deriving DecidableEq, Repr

/-- One alarm line entry (R188). -/
structure AlarmEntry where
  source : AlarmSource
  polarity : Polarity
  deriving DecidableEq, Repr

/-- The reports block: slots, report queue, alarm line table. The driven levels follow from the state (R189). -/
structure Reports where
  slots : List ReportSlot
  queue : List QueuedSlot
  alarms : List AlarmEntry
  deriving DecidableEq, Repr

/-! ## Settings, image (spec/09_management_requests.md, spec/11_the_configuration_image_and_start_up.md) -/

/-- Band interval modes (R94). -/
inductive IntervalMode where
  | auto
  | manual
  deriving DecidableEq, Repr

/-- The settings record (R174). -/
structure Settings where
  window : Nat
  promote : Nat
  aging : Nat
  mFull : Nat
  mLow : Nat
  watchdog : Nat
  mode : IntervalMode
  interval : Nat
  crcThreshold : Nat
  deriving DecidableEq, Repr

/-- The nine fields by name, in the order of R174's table. -/
inductive SettingsField where
  | window
  | promote
  | aging
  | mFull
  | mLow
  | watchdog
  | mode
  | interval
  | crcThreshold
  deriving DecidableEq, Repr

/-- The image status (R192). -/
inductive ImageStatus where
  | loaded
  | invalid
  deriving DecidableEq, Repr

/-- For whom a load runs (R193). -/
inductive LoadOrigin where
  | startUp
  | request
  | resetAll
  deriving DecidableEq, Repr

/-! ## Request contents (spec/09_management_requests.md)

A request's body is held by its named fields: the spec gives no byte layout for them (00_scope.md, Layouts). A field
that the hub may send outside its range is held as sent; an enumerated field sent with no value of its enumeration is
`none`. `Fit` is `none` when the body's length does not hold exactly the fields (R170). -/

/-- A body, or `none` when its length does not match the fields the kind carries (R170). -/
abbrev Fit (α : Type) := Option α

/-- The fields of a request apart from its body (R165): tag, kind code, the node address and the length code of its
frame's header, and the body length n. -/
structure ReqHead where
  tag : Word16
  kind : Byte
  address : Byte
  lenCode : Nat
  bodyLen : Nat
  deriving DecidableEq, Repr

/-- An element record as a MAP_WRITE or an image carries it (R6, R192). -/
structure RawElement where
  number : Nat
  kind : Option ElementKind
  parent : Option Nat
  delay : Nat
  tapPorts : Option (Fin 256)
  legAddress : Nat
  deriving DecidableEq, Repr

/-- A channel write or image record (R24, R192). -/
structure RawChannel where
  channel : Nat
  enabled : Option Bool
  rate : Option RateClass
  threshold : Nat
  deriving DecidableEq, Repr

/-- A band write or image record (R82, R192). -/
structure RawBand where
  band : Nat
  enabled : Option Bool
  start : Nat
  stop : Nat
  floor : Level
  declareMargin : Int
  clearMargin : Int
  minBins : Nat
  declareCount : Nat
  clearCount : Nat
  mode : Option EventMode
  deriving DecidableEq, Repr

/-- A settings write or image record (R174, R192). -/
structure RawSettings where
  window : Nat
  promote : Nat
  aging : Nat
  mFull : Nat
  mLow : Nat
  watchdog : Nat
  mode : Option IntervalMode
  interval : Nat
  crcThreshold : Nat
  deriving DecidableEq, Repr

/-- An event set as sent: the five events it names, and whether it names anything else (R181). -/
structure RawEventSet where
  set : EventSet
  other : Bool
  deriving DecidableEq, Repr

/-- A report slot write or image record (R181, R192). -/
structure RawSlot where
  slot : Nat
  enabled : Option Bool
  repeats : Option Bool
  kind : Option ReportKind
  trigger : Option Trigger
  period : Option Nat
  events : Option RawEventSet
  bandFilter : Option Nat
  deriving DecidableEq, Repr

/-- An alarm line write or image record (R188, R192). -/
structure RawAlarm where
  line : Nat
  source : Option AlarmSource
  polarity : Option Polarity
  deriving DecidableEq, Repr

/-- An ATTACH_SET's four fields (R17). -/
structure RawAttach where
  station : Word32
  element : Nat
  port : Nat
  drop : Nat
  deriving DecidableEq, Repr

/-- A start and a count, as the reads carry them (R15, R22, R63, R84). -/
structure StartCount where
  start : Nat
  count : Nat
  deriving DecidableEq, Repr

/-- A SEARCH_START's five fields (R124). -/
structure RawSearch where
  band : Nat
  level : Nat
  k : Nat
  sk : Nat
  hold : Nat
  deriving DecidableEq, Repr

/-- A DIRECT_STEP's three fields (R116). -/
structure RawStep where
  address : Nat
  level : Nat
  hold : Nat
  deriving DecidableEq, Repr

/-- The groups of STATUS_READ (R176). -/
inductive StatusGroup where
  | map
  | echo
  | tally
  | sweep
  | bands
  | legs
  | search
  | link
  | reports
  deriving DecidableEq, Repr

/-- A STATUS_READ's body (R176): none, a group selector, a selector naming none of the groups, or a body of any other length. -/
inductive StatusSelector where
  | common
  | group (g : StatusGroup)
  | unknown
  | misfit
  deriving DecidableEq, Repr

/-- Which part of a request names nothing the manual knows: its kind code (R170), the table selector of a TABLE_READ
or a TABLE_WRITE (R175), the form of an ATTACH_READ (R22), of a TALLY_READ (R63) or of a RESULT_READ (R143), or the
scope of a TALLY_CLEAR (R64). -/
inductive Unnamed where
  | kindCode
  | readSelector
  | writeSelector
  | attachForm
  | tallyForm
  | tallyScope
  | resultForm
  deriving DecidableEq, Repr

/-- The content of a request's body, one constructor per request row of the table. -/
inductive ReqBody where
  | statusRead (sel : StatusSelector)
  | unknownRequest (what : Unnamed)
  | tableReadChannel (fits : Bool)
  | tableWriteChannel (b : Fit RawChannel)
  | tableReadBand (b : Fit StartCount)
  | tableWriteBand (b : Fit RawBand)
  | tableReadCorrection (fits : Bool)
  | tableWriteCorrection (b : Fit (StartCount × List Correction))
  | tableReadSettings (fits : Bool)
  | tableWriteSettings (b : Fit RawSettings)
  | tableReadReportSlot (fits : Bool)
  | tableWriteReportSlot (b : Fit RawSlot)
  | tableReadAlarmLine (fits : Bool)
  | tableWriteAlarmLine (b : Fit RawAlarm)
  | mapOpen
  | mapWrite (b : Fit (Nat × List RawElement))
  | mapDelete (b : Fit (Nat × List Nat))
  | mapClear
  | mapClose
  | mapRead (b : Fit StartCount)
  | attachSet (b : Fit RawAttach)
  | attachDelete (b : Fit Word32)
  | attachReadByStation (b : Fit Word32)
  | attachReadByRange (b : Fit StartCount)
  | tallyReadBySlot (b : Fit StartCount)
  | tallyReadRanked (b : Fit StartCount)
  | tallyReadByKey (b : Fit (Nat × Option Place))
  | tallyClearAll (fits : Bool)
  | tallyClearFlags (fits : Bool)
  | searchStart (b : Fit RawSearch)
  | searchAbort
  | resultReadLatest (fits : Bool)
  | resultReadByNumber (b : Fit Nat)
  | directStep (b : Fit RawStep)
  | directRelease (b : Fit Nat)
  | directQuery (b : Fit Nat)
  | counterSnapshot
  | addressSet (b : Fit Nat)
  | timeSet (b : Fit Word32)
  | imageLoad
  | imageSave
  | resetEngines
  | resetAll
  deriving DecidableEq, Repr

/-- One entry of the request queue (R165, R167). -/
structure Request where
  head : ReqHead
  body : ReqBody
  deriving DecidableEq, Repr

/-! ## Image (spec/11_the_configuration_image_and_start_up.md) -/

/-- One image record (R192). -/
inductive ImageRecord where
  | settings (r : RawSettings)
  | channel (r : RawChannel)
  | band (r : RawBand)
  | correction (entry : Nat) (c : Correction)
  | slot (r : RawSlot)
  | alarm (r : RawAlarm)
  | element (r : RawElement)
  | attachment (index : Nat) (r : RawAttach)
  deriving DecidableEq, Repr

/-- The serial flash: the image's header and its records (R192). -/
structure Flash where
  format : Nat
  length : Nat
  crc : Word32
  records : List ImageRecord
  deriving DecidableEq, Repr

/-- The image loader block (R192 to R195): status, the load in progress and for whom it runs, the records of the save
in progress, and the flash. -/
structure ImageLoader where
  status : ImageStatus
  load : Option LoadOrigin
  saving : Option (List ImageRecord)
  flash : Flash
  deriving DecidableEq, Repr

/-! ## Responses and reports -/

/-- Completion codes (R166). -/
inductive Completion where
  | ok
  | badRequest
  | badIndex
  | badValue
  | mapState
  | searchActive
  | legBusy
  | noBand
  | noLegs
  | tableFull
  | notFound
  | timeout
  | busy
  | imageBad
  deriving DecidableEq, Repr

/-- Where the node address comes from (R171). -/
inductive AddressSource where
  | strap
  | override
  deriving DecidableEq, Repr

/-- The common part of STATUS_READ (R176); the search state is `none` in IDLE. -/
structure StatusCommon where
  partCode : Nat
  revision : Nat
  nodeAddress : Byte
  addressSource : AddressSource
  strap : Byte
  plantTime : Word32
  imageStatus : ImageStatus
  loading : Bool
  saving : Bool
  mapState : MapState
  searchState : Option RunState
  requests : Nat
  responses : Nat
  dropped : Nat
  deriving DecidableEq, Repr

/-- A report slot as the reads give it (R181, R190): entry, whether queued, whole seconds to the next expiry. -/
structure SlotView where
  entry : SlotEntry
  queued : Bool
  seconds : Option Nat
  deriving DecidableEq, Repr

/-- A report slot as the group REPORTS of STATUS_READ gives it (R190): its period, event set and band filter are not in it. -/
structure SlotStatus where
  enabled : Bool
  repeats : Bool
  kind : ReportKind
  trigger : Trigger
  queued : Bool
  seconds : Option Nat
  deriving DecidableEq, Repr

/-- An alarm line as the reads give it (R188, R190): entry and driven level, true for high. -/
structure AlarmView where
  entry : AlarmEntry
  high : Bool
  deriving DecidableEq, Repr

/-- A tracking entry as LEG_STATES gives it (R121): the lapse deadline as whole seconds remaining. -/
structure LegView where
  address : Nat
  state : TrackState
  owner : Option Requester
  seconds : Option Nat
  reachable : Bool
  timeouts : Nat
  failures : Nat
  lastReply : Option Word32
  retained : Bool
  deriving DecidableEq, Repr

/-- The entry not PASS as STATUS_READ gives it (R121). -/
structure BusyLegView where
  address : Nat
  state : TrackState
  owner : Option Requester
  seconds : Option Nat
  deriving DecidableEq, Repr

/-- The transaction in progress as STATUS_READ gives it (R121). -/
structure TransactionView where
  address : Nat
  command : TlmCommand
  requester : Requester
  deriving DecidableEq, Repr

/-- The telemetry controller's items of STATUS_READ (R121). -/
structure LegsView where
  entries : Nat
  busy : Option BusyLegView
  unreachable : Nat
  directQueue : Nat
  transaction : Option TransactionView
  sent : Nat
  timeout : Nat
  ignored : Nat
  watchdog : Nat
  deriving DecidableEq, Repr

/-- The running search's items of STATUS_READ (R144). -/
structure RunningView where
  state : RunState
  number : Nat
  band : Nat
  level : Nat
  k : Nat
  sk : Nat
  hold : Nat
  head : Nat
  leg : Option (Nat × Nat)
  collected : Nat
  baseline : Option Int
  seconds : Option Nat
  cause : Option SearchOutcome
  path : List Nat
  measured : Nat
  deriving DecidableEq, Repr

/-- The search's items of STATUS_READ (R144). -/
structure SearchView where
  running : Option RunningView
  results : Nat
  newest : Option Nat
  deriving DecidableEq, Repr

/-- One receive lane's items of STATUS_READ (R163). -/
structure LaneView where
  locked : Bool
  degraded : Bool
  interval : Nat
  lastInterval : Nat
  rxFrames : Nat
  rxCrcErrors : Nat
  headerErrors : Nat
  lockLosses : Nat
  deriving DecidableEq, Repr

/-- The return link's items of STATUS_READ (R163). -/
structure LinkView where
  node : LaneView
  hub : LaneView
  requestsTaken : Nat
  responsesSent : Nat
  reportsSent : Nat
  occupancy : Nat
  peak : Nat
  store : Nat
  crcThreshold : Nat
  deriving DecidableEq, Repr

/-- The part of the selected group of STATUS_READ (R176). -/
inductive GroupView where
  | map (state : MapState) (error : Option MapError) (elements occupied stale : Nat)
  | echo (counters : IntakeCounters) (occupancy : Nat) (latest : Option LatestEcho)
  | tally (summary : TallySummary)
  | sweep (assembling : Option (Nat × Nat)) (lastDiscard : Option DiscardReason) (latest : Option LatestSweep)
      (complete incomplete orphan malformed clamped : Nat)
  | bands (count : Nat) (declared : List Nat) (mode : IntervalMode) (interval : Nat) (lastTransfer : Option Word32)
  | legs (v : LegsView)
  | search (v : SearchView)
  | link (v : LinkView)
  | reports (slots : List SlotStatus) (queue : List QueuedSlot) (alarms : List AlarmView)
  deriving DecidableEq, Repr

/-- A response's body by its named contents, in the order the owning rule gives them. -/
inductive Body where
  | empty
  | position (n : Nat)
  | elementCount (present : Nat)
  | deleteCounts (vacated present : Nat)
  | mapError (e : MapError)
  | mapRecords (state : MapState) (error : Option MapError) (present : Nat) (records : Table Element)
      (continuation : Option Nat)
  | attachIndex (index : Nat)
  | attachEntry (index element port drop : Nat) (validity : Validity)
  | attachEntries (occupied stale : Nat) (entries : Table Attachment) (continuation : Option Nat)
  | channels (entries : List Channel)
  | bands (entries : List BandSlot)
  | corrections (entries : List Correction)
  | settings (r : Settings)
  | settingsField (f : SettingsField)
  | slots (entries : List SlotView)
  | alarms (entries : List AlarmView)
  | tallySlots (summary : TallySummary) (records : Table TallyRecord) (continuation : Option Nat)
  | tallyRanked (summary : TallySummary) (records : Table TallyRecord)
  | tallyRecord (summary : TallySummary) (slot : Nat) (r : TallyRecord)
  | searchNumber (n : Nat)
  | searchAborted (n : Nat) (cause : Option SearchOutcome)
  | result (count oldest newest : Nat) (r : SearchResult)
  | direct (address : Nat) (reply : Option Reply) (entry : Option (TrackState × Bool))
  | transferTime (t : Option Word32)
  | addresses (previous current : Byte)
  | times (previous current : Word32)
  | imageStatus (s : ImageStatus)
  | imageLoaded (s : ImageStatus) (map : MapState) (error : Option MapError)
  | imageLength (bytes : Nat)
  | status (common : StatusCommon) (group : Option GroupView)
  deriving DecidableEq, Repr

/-- One response, built when its request completes (R166). -/
structure Response where
  address : Byte
  tag : Word16
  kind : Byte
  code : Completion
  body : Body
  deriving DecidableEq, Repr

/-- One enabled band's line of a BAND_SUMMARY (R187). -/
structure BandLine where
  band : Nat
  state : BandState
  peak : Option Level
  burst : Nat
  longest : Nat
  hotCount : Nat
  lastCount : Nat
  lastLongest : Nat
  declares : Nat
  deriving DecidableEq, Repr

/-- A report's body after the report header (R187). -/
inductive ReportContent where
  | bandSummary (mode : IntervalMode) (interval : Nat) (lastTransfer : Option Word32) (count : Nat) (lines : List BandLine)
  | tallyTop (summary : TallySummary) (records : Table TallyRecord)
  | searchResult (state : Option RunState) (count : Nat) (newest : Option SearchResult)
  | linkCounters (v : LinkView) (dropped : Nat)
  | legStates (count : Nat) (entries : List LegView) (left : Nat)
  deriving DecidableEq, Repr

/-- A report's body: the report header and the content (R187). -/
structure ReportBody where
  time : Word32
  cause : Cause
  count : Nat
  content : ReportContent
  deriving DecidableEq, Repr

/-- One report, composed when the transmitter chooses it (R186). -/
structure Report where
  address : Byte
  slot : Nat
  kind : ReportKind
  body : ReportBody
  deriving DecidableEq, Repr

/-! ## Return link (spec/08_the_return_link.md) -/

/-- The lock state of a receive lane (R149, R150): HUNTING with its valid-header run and expected position, or LOCKED
with its invalid-header run and expected position. Positions are counted in bytes of line time. -/
inductive LockState where
  | hunting (run : Nat) (expected : Option Nat)
  | locked (run : Nat) (expected : Nat)
  deriving DecidableEq, Repr

/-- The frame in reception on a LOCKED lane: its header's bytes and the byte time its first byte came (R150, R152). -/
structure Reception where
  header : List Byte
  start : Nat
  deriving DecidableEq, Repr

/-- A CRC monitor (R153). -/
structure CrcMonitor where
  interval : Nat
  lastInterval : Nat
  degraded : Bool
  deriving DecidableEq, Repr

/-- One receive lane: lock state, the next byte position a hunt tests with its run at 0, whether the signal is
present (R151), the frame in reception, the CRC monitor and the lane's counters (R163). -/
structure RxLane where
  lock : LockState
  cursor : Nat
  signal : Bool
  rx : Option Reception
  crc : CrcMonitor
  rxFrames : Nat
  rxCrcErrors : Nat
  headerErrors : Nat
  lockLosses : Nat
  deriving DecidableEq, Repr

/-- A whole frame in the node-bound store, marked when it was taken as a request (R160, R161). -/
structure StoreFrame where
  frame : Frame
  taken : Bool
  deriving DecidableEq, Repr

/-- What the hub-side transmitter is sending (R156). -/
inductive HubSent where
  | fill (address : Byte)
  | response (r : Response)
  | report (r : Report)
  | through (f : Frame)
  deriving DecidableEq, Repr

/-- What the node-side transmitter is sending (R160): one FILL, L FILLs in place of a taken request, or a frame. -/
inductive NodeSent where
  | fill (address : Byte)
  | fills (count : Nat) (address : Byte)
  | frame (f : Frame)
  deriving DecidableEq, Repr

/-- The hub-side transmitter: what it sends and the byte time its last byte has gone. -/
structure HubTx where
  sending : HubSent
  endsAt : Nat
  deriving DecidableEq, Repr

/-- The node-side transmitter. -/
structure NodeTx where
  sending : NodeSent
  endsAt : Nat
  deriving DecidableEq, Repr

/-- The return link block. `byteTime` counts bytes of line time: one line rate serves every lane (chapter 8, opening).
`through` holds the whole frames waiting in the pass-through buffer, `store` those in the node-bound store; the frame
still arriving stands in the lane's reception and the frame leaving in the transmitter. `crcDue` is the CRC interval
timer's next expiry, in ms of the elapsed-time base (R153). -/
structure Link where
  node : RxLane
  hub : RxLane
  byteTime : Nat
  through : List Frame
  store : List StoreFrame
  hubTx : HubTx
  nodeTx : NodeTx
  peak : Nat
  requestsTaken : Nat
  responsesSent : Nat
  reportsSent : Nat
  crcDue : Nat
  deriving DecidableEq, Repr

/-! ## Management (spec/09_management_requests.md) -/

/-- The management block: request queue, whether its head is executing (R168), response queue, REQ_DROPPED, strap and
node address (R171), settings record (R174). -/
structure Mgmt where
  requests : List Request
  executing : Bool
  responses : List Response
  dropped : Nat
  strap : Byte
  nodeAddress : Byte
  addressSource : AddressSource
  settings : Settings
  deriving DecidableEq, Repr

/-- The clocks (R173): plant time, the elapsed-time base in ms, and the moment on it of plant time's next rise. -/
structure Clocks where
  plantTime : Word32
  elapsed : Nat
  plantDue : Nat
  deriving DecidableEq, Repr

end Sys2Proof.Machine
end

