-- ==== Sys2Proof/Syntax.lean ====
section
/-! DEFINITION. The commands of the RL-640: one constructor per row of spec/opcode_table.json, in the table's order.
Three kinds of command stand here. An event of the link, of a timer or of the telemetry line carries what it brings
(a lane, a header, a frame, a byte). An internal step that the part takes when its condition holds (a choice of a
transmitter, the beginning or the completion of an operation) carries nothing. A request row carries the request that
executes: its head (R165) and its body's fields. -/

namespace Sys2Proof

open Sys2Proof.Machine

/-- The commands, one constructor per row of spec/opcode_table.json. -/
inductive Instr where
  /-- POWER_ON (R196): `strap` is what the eight strap pins read (R171). -/
  | powerOn (strap : Byte)
  /-- PIN_RESET (R196). -/
  | pinReset (strap : Byte)
  /-- PLANT_TIME_TICK (R173). -/
  | plantTimeTick
  /-- LOSS_OF_SIGNAL (R151). -/
  | lossOfSignal (lane : Lane)
  /-- SIGNAL_RETURN (R151). -/
  | signalReturn (lane : Lane)
  /-- HEADER_TEST_HUNTING (R149): the six bytes at the position the hunting lane tests. -/
  | headerTestHunting (lane : Lane) (header : List Byte)
  /-- INVALID_HEADER (R150): the six bytes at the expected position of a LOCKED lane. -/
  | invalidHeader (lane : Lane) (header : List Byte)
  /-- BURST_DESC (R25): a frame of that kind arrives whole on the node side. -/
  | burstDesc (frame : Frame)
  /-- SPECTRUM_SEG (R67): a frame of that kind arrives whole on the node side. -/
  | spectrumSeg (frame : Frame)
  /-- MGMT_REQ (R161): a request addressed to the part arrives whole on the hub side; `body` holds its body's fields. -/
  | mgmtReq (frame : Frame) (body : ReqBody)
  /-- FRAME_ARRIVAL (R152): any other frame arrives whole. -/
  | frameArrival (lane : Lane) (frame : Frame)
  /-- HUB_TX_CHOICE (R156). -/
  | hubTxChoice
  /-- NODE_TX_CHOICE (R160). -/
  | nodeTxChoice
  /-- CRC_INTERVAL_EXPIRY (R153). -/
  | crcIntervalExpiry
  /-- ANALYSIS_BEGIN (R28). -/
  | analysisBegin
  /-- ANALYSIS_COMPLETION (R28). -/
  | analysisCompletion
  /-- AGING_EXPIRY (R60). -/
  | agingExpiry
  /-- BAND_INTERVAL_EXPIRY (R94). -/
  | bandIntervalExpiry
  /-- TLM_TRANSACTION_START (R106, R113). -/
  | tlmTransactionStart
  /-- TLM_REPLY_FRAME (R105): the seven bytes of a complete reply frame. -/
  | tlmReplyFrame (frame : List Byte)
  /-- TLM_WATCHDOG_EXPIRY (R106). -/
  | tlmWatchdogExpiry
  /-- LAPSE_DEADLINE (R110): the entry whose deadline is reached, by its leg address. -/
  | lapseDeadline (address : Nat)
  /-- MEASURE_DEADLINE (R129). -/
  | measureDeadline
  /-- PERIOD_TIMER_EXPIRY (R184): the slot whose period timer expires. -/
  | periodTimerExpiry (slot : Nat)
  /-- STATUS_READ (R176). -/
  | statusRead (h : ReqHead) (sel : StatusSelector)
  /-- UNKNOWN_REQUEST (R170): a request whose kind code, or a selector, form or scope of it, names nothing known. -/
  | unknownRequest (h : ReqHead) (what : Unnamed)
  /-- TABLE_READ of the channel table (R24). -/
  | tableReadChannel (h : ReqHead) (fits : Bool)
  /-- TABLE_WRITE to the channel table (R24). -/
  | tableWriteChannel (h : ReqHead) (b : Fit RawChannel)
  /-- TABLE_READ of the band table (R84). -/
  | tableReadBand (h : ReqHead) (b : Fit StartCount)
  /-- TABLE_WRITE to the band table (R82). -/
  | tableWriteBand (h : ReqHead) (b : Fit RawBand)
  /-- TABLE_READ of the correction table (R78). -/
  | tableReadCorrection (h : ReqHead) (fits : Bool)
  /-- TABLE_WRITE to the correction table (R78): start, count and the pairs the body holds. -/
  | tableWriteCorrection (h : ReqHead) (b : Fit (StartCount × List Correction))
  /-- TABLE_READ of the settings table (R174). -/
  | tableReadSettings (h : ReqHead) (fits : Bool)
  /-- TABLE_WRITE to the settings table (R174). -/
  | tableWriteSettings (h : ReqHead) (b : Fit RawSettings)
  /-- TABLE_READ of the report slot table (R181). -/
  | tableReadReportSlot (h : ReqHead) (fits : Bool)
  /-- TABLE_WRITE to the report slot table (R181). -/
  | tableWriteReportSlot (h : ReqHead) (b : Fit RawSlot)
  /-- TABLE_READ of the alarm line table (R188). -/
  | tableReadAlarmLine (h : ReqHead) (fits : Bool)
  /-- TABLE_WRITE to the alarm line table (R188). -/
  | tableWriteAlarmLine (h : ReqHead) (b : Fit RawAlarm)
  /-- MAP_OPEN (R5). -/
  | mapOpen (h : ReqHead)
  /-- MAP_WRITE (R6): the count and the records the body holds. -/
  | mapWrite (h : ReqHead) (b : Fit (Nat × List RawElement))
  /-- MAP_DELETE (R8): the count and the element numbers the body holds. -/
  | mapDelete (h : ReqHead) (b : Fit (Nat × List Nat))
  /-- MAP_CLEAR (R9). -/
  | mapClear (h : ReqHead)
  /-- MAP_CLOSE (R10). -/
  | mapClose (h : ReqHead)
  /-- MAP_CLOSE_COMPLETION (R11). -/
  | mapCloseCompletion
  /-- MAP_READ (R15). -/
  | mapRead (h : ReqHead) (b : Fit StartCount)
  /-- ATTACH_SET (R17). -/
  | attachSet (h : ReqHead) (b : Fit RawAttach)
  /-- ATTACH_DELETE (R20). -/
  | attachDelete (h : ReqHead) (b : Fit Word32)
  /-- ATTACH_READ by station id (R22). -/
  | attachReadByStation (h : ReqHead) (b : Fit Word32)
  /-- ATTACH_READ by index range (R22). -/
  | attachReadByRange (h : ReqHead) (b : Fit StartCount)
  /-- TALLY_READ by slot (R63). -/
  | tallyReadBySlot (h : ReqHead) (b : Fit StartCount)
  /-- TALLY_READ ranked (R63). -/
  | tallyReadRanked (h : ReqHead) (b : Fit StartCount)
  /-- TALLY_READ by key (R63). -/
  | tallyReadByKey (h : ReqHead) (b : Fit (Nat × Option Place))
  /-- TALLY_CLEAR with scope ALL (R64). -/
  | tallyClearAll (h : ReqHead) (fits : Bool)
  /-- TALLY_CLEAR with scope FLAGS (R64). -/
  | tallyClearFlags (h : ReqHead) (fits : Bool)
  /-- SEARCH_START (R124). -/
  | searchStart (h : ReqHead) (b : Fit RawSearch)
  /-- SEARCH_ABORT (R139). -/
  | searchAbort (h : ReqHead)
  /-- RESULT_READ LATEST (R143). -/
  | resultReadLatest (h : ReqHead) (fits : Bool)
  /-- RESULT_READ BY_NUMBER (R143). -/
  | resultReadByNumber (h : ReqHead) (b : Fit Nat)
  /-- DIRECT_STEP (R116). -/
  | directStep (h : ReqHead) (b : Fit RawStep)
  /-- DIRECT_RELEASE (R117). -/
  | directRelease (h : ReqHead) (b : Fit Nat)
  /-- DIRECT_QUERY (R117). -/
  | directQuery (h : ReqHead) (b : Fit Nat)
  /-- COUNTER_SNAPSHOT (R96). -/
  | counterSnapshot (h : ReqHead)
  /-- ADDRESS_SET (R171). -/
  | addressSet (h : ReqHead) (b : Fit Nat)
  /-- TIME_SET (R173). -/
  | timeSet (h : ReqHead) (b : Fit Word32)
  /-- IMAGE_LOAD (R194). -/
  | imageLoad (h : ReqHead)
  /-- IMAGE_LOAD_COMPLETION (R193). -/
  | imageLoadCompletion
  /-- IMAGE_SAVE (R195). -/
  | imageSave (h : ReqHead)
  /-- IMAGE_SAVE_COMPLETION (R195). -/
  | imageSaveCompletion
  /-- RESET_ENGINES (R177). -/
  | resetEngines (h : ReqHead)
  /-- RESET_ALL (R178). -/
  | resetAll (h : ReqHead)
  /-- VALID_HEADER (R150): the six bytes at the expected position of a LOCKED lane. -/
  | validHeader (lane : Lane) (header : List Byte)
  /-- BYTE_HEARD (R105): a byte heard while the telemetry line is not sending. -/
  | byteHeard (b : Byte)
  deriving DecidableEq, Repr

end Sys2Proof
end

