-- ==== Sys2Proof/Decode.lean ====
section
/-! DEFINITION. Commands as words. No row of spec/opcode_table.json gives bits: the RL-640's commands are frames, bytes
and events, so no word spells one. -/

namespace Sys2Proof

/-- The command that a word spells by the table's bits: none, as no row gives bits. -/
def decodeTableWord (_nbits _w : Nat) : Option Instr := none

end Sys2Proof
end

