-- ==== Sys2Proof/Config.lean ====
section
/-! DEFINITION. What the manual leaves to the implementation: the byte layouts of bodies and image records, the
format value a save in progress leaves in flash, and the kind code of DIRECT_STEP. Each is a constant without a body, so no proof can rest on a choice. -/

namespace Sys2Proof

open Sys2Proof.Machine

/-- The bytes of a response's body. The manual gives each body's contents and no layout (00_scope.md, Layouts), so the
bytes and their number are free (notes/assumptions/6.md). -/
opaque Config.bodyBytes : Body → List Byte

/-- The bytes of a report's body (R187), free in the same way (notes/assumptions/6.md). -/
opaque Config.reportBytes : ReportBody → List Byte

/-- The bytes of an image's records (R192), whose layout the manual does not give (notes/assumptions/7.md). -/
opaque Config.recordBytes : List ImageRecord → List Byte

/-- The number of bytes of an image's header (R192), whose layout the manual does not give (notes/assumptions/7.md). -/
opaque Config.headerBytes : Nat

/-- The format value that the first step of a save writes is "not 1" (R195) and otherwise free (notes/assumptions/7.md). -/
opaque Config.savingFormat : Nat

/-- The kind code of DIRECT_STEP: R165's table of kinds and codes has no row for it (notes/assumptions/5.md). -/
opaque Config.directStepCode : Byte

end Sys2Proof
end

