-- ==== Sys2Proof/Machine/ResetValues.lean ====
section
/-! DEFINITION. The value each piece of state takes at power-on and pin reset, chapter by chapter. -/

namespace Sys2Proof.Machine

/-- Reset values of the settings record (R174). -/
def resetSettings : Settings :=
  { window := 60, promote := 3, aging := 900, mFull := 20, mLow := 15, watchdog := 100, mode := .auto, interval := 60,
    crcThreshold := 16 }

/-- Reset values of a channel table entry (R23). -/
def resetChannel : Channel := { enabled := false, rate := .r512, threshold := 207 }

/-- Reset values of the channel table (R23). -/
def resetChannels : List Channel := List.replicate 8 resetChannel

/-- Reset values of a correction entry: gain 1.0, offset 0 (R75). -/
def resetCorrections : List Correction := List.replicate 32 { gain := 32768, offset := 0 }

/-- Reset values of a band table entry (R81). -/
def resetBand : Band :=
  { enabled := false, start := 0, stop := 0, floor := 0, declareMargin := 0, clearMargin := 0, minBins := 1,
    declareCount := 1, clearCount := 1, mode := .declareOnly }

/-- The reset live state of a band (R83, R98). -/
def resetLive : BandLive :=
  { state := .clear, hotRun := 0, coldRun := 0, burst := 0, longest := 0, hotCount := 0, lastCount := 0, lastLongest := 0,
    declares := 0, peak := none }

/-- Reset values of the 32 bands (R98). -/
def resetBands : List BandSlot := List.replicate 32 { entry := resetBand, live := resetLive }

/-- Reset values of a report slot entry (R180). -/
def resetSlotEntry : SlotEntry :=
  { enabled := false, repeats := false, kind := .bandSummary, trigger := .now, period := none, events := none,
    bandFilter := none }

/-- Reset values of the report slot table, every period timer stopped (R191). -/
def resetSlots : List ReportSlot := List.replicate 8 { entry := resetSlotEntry, due := none }

/-- Reset values of the alarm line table (R188). -/
def resetAlarms : List AlarmEntry := List.replicate 4 { source := .fixedLow, polarity := .activeHigh }

/-- The intake counters at 0 (R34). -/
def zeroCounters : IntakeCounters :=
  { accepted := 0, notAnalysed := 0, malformed := 0, mapNotReady := 0, channelOff := 0, unknownStation := 0,
    suppressed := 0, eqInvalid := 0, clean := 0, placed := 0, drop := 0, span := 0, beyond := 0 }

/-- Milliseconds in `s` seconds of the elapsed-time base. -/
def seconds (s : Nat) : Nat := s * 1000

/-- The node address a strap value gives: 1 for 0, 254 for 255, otherwise the value itself (R171). -/
def strapAddress (strap : Byte) : Byte :=
  if strap = 0 then 1 else if strap = 255 then 254 else strap

/-- The plant map at power-on (R3). -/
def powerOnMap : PlantMap :=
  { state := .empty, elements := [], error := none, closing := false, attachments := [] }

/-- Echo analysis at power-on (R34). -/
def powerOnEcho : Echo :=
  { channels := resetChannels, queue := [], analysis := none, counters := zeroCounters, latest := none }

/-- The tally at power-on, the aging timer started with the reset interval (R66). -/
def powerOnTally : Tally :=
  { records := [], overflow := 0, replacement := 0, agingDue := seconds resetSettings.aging }

/-- Sweep intake at power-on (R80). -/
def powerOnSweep : Sweep :=
  { assembly := .idle, corrections := resetCorrections, complete := 0, incomplete := 0, orphan := 0, malformed := 0,
    clamped := 0, lastDiscard := none, latest := none }

/-- Band watch at power-on, the interval timer started (R98). -/
def powerOnBands : BandWatch :=
  { bands := resetBands, lastTransfer := none, intervalDue := some (seconds resetSettings.interval) }

/-- The telemetry controller at power-on (R120): no command frame has been sent. -/
def powerOnTelemetry : Telemetry :=
  { entries := [], transaction := none, searchRequest := none, directQueue := [], assembling := [], line := [],
    sent := 0, timeout := 0, ignored := 0 }

/-- The ingress search at power-on (R145). -/
def powerOnSearch : Search := { record := none, log := [], nextNumber := 1 }

/-- The reports block at power-on (R191). -/
def powerOnReports : Reports := { slots := resetSlots, queue := [], alarms := resetAlarms }

/-- A receive lane at power-on and at pin reset: HUNTING, its run 0, its monitor OK (R149, R164). The manual gives the
presence of the signal no reset value; here it is present again after each of them. DESIGN CHOICE, notes/assumptions/3.md. -/
def powerOnLane : RxLane :=
  { lock := .hunting 0 none, cursor := 0, signal := true, rx := none,
    crc := { interval := 0, lastInterval := 0, degraded := false }, rxFrames := 0, rxCrcErrors := 0, headerErrors := 0,
    lockLosses := 0 }

/-- The return link at power-on: both transmitters start with one 16-byte FILL from the node address (R146, R164). -/
def powerOnLink (address : Byte) : Link :=
  { node := powerOnLane, hub := powerOnLane, byteTime := 0, through := [], store := [],
    hubTx := { sending := .fill address, endsAt := 16 }, nodeTx := { sending := .fill address, endsAt := 16 }, peak := 0,
    requestsTaken := 0, responsesSent := 0, reportsSent := 0, crcDue := seconds 1 }

/-- Management at power-on, with the strap value read from the pins (R171, R179). -/
def powerOnMgmt (strap : Byte) : Mgmt :=
  { requests := [], executing := false, responses := [], dropped := 0, strap := strap, nodeAddress := strapAddress strap,
    addressSource := .strap, settings := resetSettings }

/-- The clocks at power-on: plant time and the elapsed-time base start at 0 (R173). -/
def powerOnClocks : Clocks := { plantTime := 0, elapsed := 0, plantDue := seconds 1 }

/-- The image loader at power-on over a given flash: status INVALID, the start-up load begun (R192, R196). -/
def powerOnImage (flash : Flash) : ImageLoader :=
  { status := .invalid, load := some .startUp, saving := none, flash := flash }

/-- A flash that no save has written: no image in it is good. DESIGN CHOICE, notes/assumptions/3.md. -/
def blankFlash : Flash := { format := 0, length := 0, crc := 0, records := [] }

end Sys2Proof.Machine
end

