-- ==== Sys2Proof/Machine/State.lean ====
section
/-! DEFINITION. The state of the RL-640 as plain data, one field per block of spec/00_scope.md's block overview (the
suspect tally and echo analysis apart, clocks apart from management), and the queue of commands that are waiting. -/

namespace Sys2Proof.Machine

/-- The state: the clocks (R173), the eleven blocks, and the waiting commands, first in, first out. -/
structure State where
  clocks : Clocks
  link : Link
  sweep : Sweep
  bands : BandWatch
  map : PlantMap
  echo : Echo
  tally : Tally
  tlm : Telemetry
  search : Search
  mgmt : Mgmt
  reports : Reports
  image : ImageLoader
  pending : List Instr
  deriving DecidableEq, Repr

/-- Why the machine stops with a fault: nothing in spec/ stops the RL-640, so there is no constructor and no command
faults (notes/assumptions/1.md). Safe: no claim can rest on a fault. -/
inductive Fault where
  deriving DecidableEq, Repr

/-- Why a command has no meaning. -/
inductive Refusal where
  /-- Raised only by an arm of `exec` whose row has no meaning yet; no arm is left so. Safe: the machine stops. -/
  | notModelled (mnemonic : String)
  deriving DecidableEq, Repr

/-- The state a power-on or a pin reset takes up (R196), with the strap pins' value, the flash as it stands, and the
commands still waiting. -/
def State.powerOn (strap : Byte) (flash : Flash) (pending : List Instr) : State :=
  { clocks := powerOnClocks
    link := powerOnLink (strapAddress strap)
    sweep := powerOnSweep
    bands := powerOnBands
    map := powerOnMap
    echo := powerOnEcho
    tally := powerOnTally
    tlm := powerOnTelemetry
    search := powerOnSearch
    mgmt := powerOnMgmt strap
    reports := powerOnReports
    image := powerOnImage flash
    pending := pending }

/-- The machine right after power-on (R196). The strap pins read 0 and the flash holds no good image: the manual fixes
neither. DESIGN CHOICE, notes/assumptions/3.md. -/
def State.reset : State := State.powerOn 0 blankFlash []

end Sys2Proof.Machine
end

