-- ==== Sys2Proof/Machine/Ops.lean ====
section
/-! DEFINITION. The operations every block shares: sparse tables, saturating counts, named roundings, bytes and frames
(R147, R148), the elapsed-time base (R173), and the beginning and completion of a request (R166 to R170). -/

namespace Sys2Proof.Machine

/-! ## Sparse tables -/

/-- The record a table holds under a number. -/
def tableGet {α : Type} : Table α → Nat → Option α
  | [], _ => none
  | (j, v) :: rest, k => if j = k then some v else tableGet rest k

/-- The table with a record put under a number, in place of what stood there; rising order is kept. -/
def tableSet {α : Type} : Table α → Nat → α → Table α
  | [], k, v => [(k, v)]
  | (j, w) :: rest, k, v =>
    if k < j then (k, v) :: (j, w) :: rest
    else if k = j then (k, v) :: rest
    else (j, w) :: tableSet rest k v

/-- The table with a number vacated. -/
def tableDel {α : Type} (t : Table α) (k : Nat) : Table α := t.filter (fun p => p.1 != k)

/-- The table with the record under a number changed, if there is one. -/
def tableModify {α : Type} (t : Table α) (k : Nat) (f : α → α) : Table α :=
  t.map (fun p => if p.1 = k then (p.1, f p.2) else p)

/-- The table with every record changed. -/
def tableMap {α : Type} (t : Table α) (f : α → α) : Table α := t.map (fun p => (p.1, f p.2))

/-- The lowest vacant number among `n` numbers from `i` up. -/
def lowestFree {α : Type} (t : Table α) : Nat → Nat → Option Nat
  | 0, _ => none
  | n + 1, i => if (tableGet t i).isNone then some i else lowestFree t n (i + 1)

/-- The canonical form of a table: numbers strictly rising and below a bound. -/
def tableOk {α : Type} (bound : Nat) : Table α → Bool
  | [] => true
  | [(k, _)] => decide (k < bound)
  | (j, _) :: (k, w) :: rest => decide (j < k) && tableOk bound ((k, w) :: rest)

/-- A table filled from (number, record) pairs. -/
def tableOf {α : Type} (pairs : List (Nat × α)) : Table α := pairs.foldl (fun t p => tableSet t p.1 p.2) []

/-! ## Order -/

/-- A list with an element put before the first one it precedes. -/
def insertBy {α : Type} (before : α → α → Bool) (x : α) : List α → List α
  | [] => [x]
  | y :: rest => if before x y then x :: y :: rest else y :: insertBy before x rest

/-- A list put in the order of a comparison. -/
def sortBy {α : Type} (before : α → α → Bool) : List α → List α
  | [] => []
  | x :: rest => insertBy before x (sortBy before rest)

/-- A list without repeats. -/
def distinct {α : Type} [DecidableEq α] : List α → Bool
  | [] => true
  | x :: rest => !rest.contains x && distinct rest

/-! ## Numbers -/

/-- A 16-bit count one higher, stopping at 65535 (00_scope.md, Quantities). -/
def bump (n : Nat) : Nat := min 65535 (n + 1)

/-- Round half up of `num / den` for a positive `den` (00_scope.md, Arithmetic). -/
def roundHalfUp (num den : Int) : Int := (2 * num + den) / (2 * den)

/-- Round to the nearest, ties away from zero, of `num / den` for a positive `den` (00_scope.md, Arithmetic). -/
def roundAway (num den : Int) : Int :=
  if 0 ≤ num then (2 * num + den) / (2 * den) else -((2 * -num + den) / (2 * den))

/-- Whole seconds from one moment of the elapsed-time base to a later one, rounded up (R121). -/
def secondsUntil (now due : Nat) : Nat := (due - now + 999) / 1000

/-! ## Bytes and frames (R147, R148) -/

/-- The number that bytes spell, most significant first (R148). -/
def beNat (bytes : List Byte) : Nat := bytes.foldl (fun a b => a * 256 + b.toNat) 0

/-- A signed two's complement field of 16 bits, most significant byte first (R148). -/
def beInt16 (bytes : List Byte) : Int := (BitVec.ofNat 16 (beNat bytes)).toInt

/-- `n` bytes of a frame from offset `i`. -/
def field (f : Frame) (i n : Nat) : List Byte := (f.drop i).take n

/-- The byte of a header or frame at an offset. -/
def byteAt (f : List Byte) (i : Nat) : Byte := f.getD i 0

/-- A header is valid (R147). -/
def headerValid (h : List Byte) : Bool :=
  decide (h.length = 6) && byteAt h 0 == 0xB7 && decide (1 ≤ (byteAt h 2).toNat) && decide ((byteAt h 2).toNat ≤ 35)
    && byteAt h 4 == ~~~(byteAt h 1 ^^^ byteAt h 2 ^^^ byteAt h 3)
    && byteAt h 5 == byteAt h 0 + byteAt h 1 + byteAt h 2 + byteAt h 3
    && (byteAt h 1 != 0x00 || byteAt h 2 == 1)

/-- A header's kind code, length in bytes (16·L) and node address (R147). -/
def headerKind (h : List Byte) : Byte := byteAt h 1

/-- The frame length in bytes a header gives (R147). -/
def headerLength (h : List Byte) : Nat := 16 * (byteAt h 2).toNat

/-- The node address a header carries (R147). -/
def headerAddress (h : List Byte) : Byte := byteAt h 3

/-- The kind codes of R147. -/
def kindFill : Byte := 0x00

def kindBurstDesc : Byte := 0x41

def kindSpectrumSeg : Byte := 0x42

def kindMgmtReq : Byte := 0x61

def kindMgmtResp : Byte := 0x62

def kindReport : Byte := 0x63

/-- The header of a frame with a kind, a length code and a node address (R147). -/
def makeHeader (kind : Byte) (lenCode : Nat) (address : Byte) : List Byte :=
  let l := BitVec.ofNat 8 lenCode
  [0xB7, kind, l, address, ~~~(kind ^^^ l ^^^ address), 0xB7 + kind + l + address]

/-- One bit taken into the check register (R147). -/
def crcBit (reg : Word32) (bit : Bool) : Word32 :=
  if reg.getLsbD 0 == bit then reg >>> 1 else (reg >>> 1) ^^^ 0xEDB88320

/-- One byte taken into the check register, least significant bit first (R147). -/
def crcByte (reg : Word32) (b : Byte) : Word32 :=
  [0, 1, 2, 3, 4, 5, 6, 7].foldl (fun r i => crcBit r (b.getLsbD i)) reg

/-- The check value of a byte string (R147). -/
def checkValue (bytes : List Byte) : Word32 := ~~~(bytes.foldl crcByte 0xFFFFFFFF)

/-- A 32-bit value as four bytes, least significant first: the CRC trailer (R147). -/
def leBytes (w : Word32) : List Byte :=
  [w.setWidth 8, (w >>> 8).setWidth 8, (w >>> 16).setWidth 8, (w >>> 24).setWidth 8]

/-- A 16-bit value as two bytes, most significant first (R148). -/
def beBytes (w : Word16) : List Byte := [(w >>> 8).setWidth 8, w.setWidth 8]

/-- A frame's CRC is good (R147). -/
def crcGood (f : Frame) : Bool := f.drop (f.length - 4) == leBytes (checkValue (f.take (f.length - 4)))

/-- A FILL frame from a node address (R147). -/
def fillFrame (address : Byte) : Frame := makeHeader kindFill 1 address ++ List.replicate 10 0

/-- The least length code whose frame holds a body of `n` bytes (R148). -/
def leastLenCode (n : Nat) : Nat := (n + 31) / 16

/-- The bytes of a MGMT_RESP or REPORT frame (R148). -/
def ownFrame (kind address : Byte) (tag : Word16) (reqKind code : Byte) (body : List Byte) : Frame :=
  let l := leastLenCode body.length
  let open' := makeHeader kind l address ++ beBytes tag ++ [reqKind, code] ++ beBytes (BitVec.ofNat 16 body.length) ++ body
  let whole := open' ++ List.replicate (16 * l - 4 - open'.length) 0
  whole ++ leBytes (checkValue whole)

/-- Completion code values (R166). -/
def Completion.value : Completion → Byte
  | .ok => 0x00
  | .badRequest => 0x01
  | .badIndex => 0x02
  | .badValue => 0x03
  | .mapState => 0x04
  | .searchActive => 0x05
  | .legBusy => 0x06
  | .noBand => 0x07
  | .noLegs => 0x08
  | .tableFull => 0x09
  | .notFound => 0x0A
  | .timeout => 0x0B
  | .busy => 0x0C
  | .imageBad => 0x0D

/-- A body's bytes: none for an empty body, otherwise the implementation's, at most 544 (R158, notes/assumptions/6.md). -/
def Body.bytes (b : Body) : List Byte := if b = .empty then [] else (Config.bodyBytes b).take 544

/-- The complete MGMT_RESP frame of a response (R148, R166). -/
def Response.frame (r : Response) : Frame := ownFrame kindMgmtResp r.address r.tag r.kind r.code.value r.body.bytes

/-- Report kind codes (R186). -/
def ReportKind.code : ReportKind → Byte
  | .bandSummary => 0x01
  | .tallyTop => 0x02
  | .searchResult => 0x03
  | .linkCounters => 0x04
  | .legStates => 0x05

/-- The complete REPORT frame of a report (R148, R186). -/
def Report.frame (r : Report) : Frame :=
  ownFrame kindReport r.address (BitVec.ofNat 16 r.slot) r.kind.code 0x00 ((Config.reportBytes r.body).take 544)

/-! ## The elapsed-time base (R173) -/

/-- The elapsed-time base reaches a moment; it never runs back (notes/assumptions/4.md). -/
def reach (due : Nat) (s : State) : State :=
  { s with clocks := { s.clocks with elapsed := max s.clocks.elapsed due } }

/-- The moment `n` seconds after now on the elapsed-time base. -/
def after (s : State) (n : Nat) : Nat := s.clocks.elapsed + seconds n

/-! ## Requests (R165 to R170) -/

/-- The kind codes that R165's table lists. -/
def listedKinds : List Byte :=
  [0x01, 0x02, 0x03, 0x10, 0x11, 0x12, 0x13, 0x14, 0x15, 0x18, 0x19, 0x1A, 0x20, 0x21, 0x28, 0x29, 0x2A, 0x31, 0x32, 0x38,
    0x40, 0x41, 0x48, 0x49, 0x50, 0x51]

/-- The kind code of DIRECT_STEP: R165's table gives none, so it is free among the codes the table does not give to
another kind. DESIGN CHOICE, notes/assumptions/5.md. -/
def directStepKind : Byte :=
  if listedKinds.contains Config.directStepCode then 0x30 else Config.directStepCode

/-- The kind codes of R165, that of DIRECT_STEP among them. -/
def knownKinds : List Byte := listedKinds ++ [directStepKind]

/-- The kind code of R165 that a body belongs to; `none` for a request whose kind code is unknown. -/
def ReqBody.kind : ReqBody → Option Byte
  | .statusRead _ => some 0x01
  | .unknownRequest .kindCode => none
  | .unknownRequest .readSelector => some 0x02
  | .unknownRequest .writeSelector => some 0x03
  | .unknownRequest .attachForm => some 0x1A
  | .unknownRequest .tallyForm => some 0x20
  | .unknownRequest .tallyScope => some 0x21
  | .unknownRequest .resultForm => some 0x2A
  | .tableReadChannel _ => some 0x02
  | .tableWriteChannel _ => some 0x03
  | .tableReadBand _ => some 0x02
  | .tableWriteBand _ => some 0x03
  | .tableReadCorrection _ => some 0x02
  | .tableWriteCorrection _ => some 0x03
  | .tableReadSettings _ => some 0x02
  | .tableWriteSettings _ => some 0x03
  | .tableReadReportSlot _ => some 0x02
  | .tableWriteReportSlot _ => some 0x03
  | .tableReadAlarmLine _ => some 0x02
  | .tableWriteAlarmLine _ => some 0x03
  | .mapOpen => some 0x10
  | .mapWrite _ => some 0x11
  | .mapDelete _ => some 0x12
  | .mapClear => some 0x13
  | .mapClose => some 0x14
  | .mapRead _ => some 0x15
  | .attachSet _ => some 0x18
  | .attachDelete _ => some 0x19
  | .attachReadByStation _ => some 0x1A
  | .attachReadByRange _ => some 0x1A
  | .tallyReadBySlot _ => some 0x20
  | .tallyReadRanked _ => some 0x20
  | .tallyReadByKey _ => some 0x20
  | .tallyClearAll _ => some 0x21
  | .tallyClearFlags _ => some 0x21
  | .searchStart _ => some 0x28
  | .searchAbort => some 0x29
  | .resultReadLatest _ => some 0x2A
  | .resultReadByNumber _ => some 0x2A
  | .directStep _ => some directStepKind
  | .directRelease _ => some 0x31
  | .directQuery _ => some 0x32
  | .counterSnapshot => some 0x38
  | .addressSet _ => some 0x40
  | .timeSet _ => some 0x41
  | .imageLoad => some 0x48
  | .imageSave => some 0x49
  | .resetEngines => some 0x50
  | .resetAll => some 0x51

/-- A body is one a request with this kind code can have. -/
def ReqBody.fitsKind (b : ReqBody) (kind : Byte) : Bool :=
  match b.kind with
  | some k => k == kind
  | none => !knownKinds.contains kind

/-- The address that marks a broadcast (R172). -/
def broadcast : Byte := 255

/-- The checks made of every request when it begins, before its kind's own rule (R170). -/
def admissionRefusal (r : Request) (s : State) : Option Completion :=
  if 16 * r.head.lenCode < r.head.bodyLen + 16 ∨ 544 < r.head.bodyLen then some .badRequest
  else if r.head.kind ∉ knownKinds then some .badRequest
  else if r.head.address = broadcast ∧ r.head.kind ≠ 0x01 then some .badRequest
  else if s.image.load.isSome ∧ r.head.kind ≠ 0x01 then some .busy
  else none

/-- The request at the head of the queue may begin: it is this one, none is executing, and the response queue has room (R168). -/
def canBegin (r : Request) (s : State) : Bool :=
  decide (s.mgmt.requests.head? = some r) && !s.mgmt.executing && decide (s.mgmt.responses.length < 4)

/-- The completion of the request at the head: its response is built with the node address in force and placed, and the
request leaves the queue (R166, R168, R169). -/
def answer (r : Request) (code : Completion) (body : Body) (s : State) : State :=
  { s with mgmt := { s.mgmt with
      requests := s.mgmt.requests.tail
      executing := false
      responses := s.mgmt.responses ++ [{ address := s.mgmt.nodeAddress, tag := r.head.tag, kind := r.head.kind,
                                          code := code, body := body }] } }

/-- A refusal: the response alone, the state the request names unchanged (R166). -/
def refuse (r : Request) (code : Completion) (s : State) : State := answer r code .empty s

/-- The completion of the request that has held the head (R168). -/
def answerHead (code : Completion) (body : Body) (s : State) : State :=
  match s.mgmt.requests with
  | [] => s
  | r :: _ => answer r code body s

/-- The request at the head begins an operation that takes time: it holds the head until its completion (R168). -/
def hold (s : State) : State := { s with mgmt := { s.mgmt with executing := true } }

/-- Execution of a request: nothing while it cannot begin (R168); the refusals of R170; otherwise its kind's own rule. -/
def runRequest (r : Request) (own : State → State) (s : State) : Host.Outcome State Fault Refusal :=
  if canBegin r s then
    match admissionRefusal r s with
    | some code => .next (refuse r code s)
    | none => .next (own s)
  else .next s

end Sys2Proof.Machine
end

