-- ==== Sys2Proof/Machine/Operands.lean ====
section
/-! DEFINITION. The operand checks: what each request's fields must be for its rule to take them, and the entry or
record they make. A request, an image record and a table write of one kind share one check (R192). -/

namespace Sys2Proof.Machine

/-- A number lies in a range, both ends included (00_scope.md, Quantities). -/
def within (a b x : Nat) : Bool := decide (a ≤ x) && decide (x ≤ b)

/-- An integer lies in a range, both ends included. -/
def withinInt (a b x : Int) : Bool := decide (a ≤ x) && decide (x ≤ b)

/-! ## Settings (R174) -/

/-- The first field of a settings write outside its range, in the order of R174's table. -/
def settingsFault (r : RawSettings) : Option SettingsField :=
  if !within 0 1000 r.window then some .window
  else if !within 1 8 r.promote then some .promote
  else if !within 10 86400 r.aging then some .aging
  else if !within 0 100 r.mFull then some .mFull
  else if !within 1 100 r.mLow then some .mLow
  else if !within 1 255 r.watchdog then some .watchdog
  else if r.mode.isNone then some .mode
  else if !within 1 3600 r.interval then some .interval
  else if !within 1 65535 r.crcThreshold then some .crcThreshold
  else none

/-- The settings record a write that passes makes. -/
def settingsOf (r : RawSettings) : Settings :=
  { window := r.window, promote := r.promote, aging := r.aging, mFull := r.mFull, mLow := r.mLow, watchdog := r.watchdog,
    mode := r.mode.getD .auto, interval := r.interval, crcThreshold := r.crcThreshold }

/-! ## Channel, correction, band (R24, R78, R82) -/

/-- The channel entry a write makes, or none when a value is not one of R23's. R24 names a rate class that is none of the
three and a threshold of 0; an enabled field that is neither value is refused with them (DESIGN CHOICE,
notes/assumptions/22.md), and so is a threshold above R23's range (DESIGN CHOICE, notes/assumptions/25.md). -/
def channelOf (r : RawChannel) : Option Channel :=
  match r.enabled, r.rate with
  | some e, some c => if within 1 65535 r.threshold then some { enabled := e, rate := c, threshold := r.threshold } else none
  | _, _ => none

/-- A correction pair has values of R75. R78 names the offset's range alone; a gain above R75's range is refused with it
(DESIGN CHOICE, notes/assumptions/25.md). -/
def correctionOk (c : Correction) : Bool := within 0 65535 c.gain && withinInt (-1000) 1000 c.offset

/-- The band entry a write makes, or none when a field is outside its range in R81 (R82, condition 3). -/
def bandOf (r : RawBand) : Option Band :=
  match r.enabled, r.mode with
  | some e, some m =>
    if within 0 1023 r.start && within 0 1023 r.stop && decide (r.start ≤ r.stop) && withinInt (-1000) 1000 r.floor
        && withinInt 0 600 r.declareMargin && withinInt 0 600 r.clearMargin && decide (r.clearMargin ≤ r.declareMargin)
        && within 1 64 r.minBins && decide (r.minBins ≤ r.stop - r.start + 1) && within 1 15 r.declareCount
        && within 1 15 r.clearCount then
      some { enabled := e, start := r.start, stop := r.stop, floor := r.floor, declareMargin := r.declareMargin,
             clearMargin := r.clearMargin, minBins := r.minBins, declareCount := r.declareCount, clearCount := r.clearCount,
             mode := m }
    else none
  | _, _ => none

/-! ## Report slot, alarm line (R181, R188) -/

/-- The period, event set and band filter stand where the trigger has them and nowhere else (R181, condition 1). A
trigger that names none of the three makes nothing absent; condition 3 refuses it. -/
def slotShapeOk (r : RawSlot) : Bool :=
  match r.trigger with
  | some .now => r.period.isNone && r.events.isNone && r.bandFilter.isNone
  | some .periodic => r.period.isSome && r.events.isNone && r.bandFilter.isNone
  | some .onEvent => r.period.isNone && r.events.isSome
  | none => true

/-- The set names at least one event. -/
def EventSet.nonempty (e : EventSet) : Bool := e.declare || e.clear || e.newSuspect || e.tallyFull || e.searchEnd

/-- The slot entry a write makes, or none when a value is out of its range (R181, condition 3). -/
def slotOf (r : RawSlot) : Option SlotEntry :=
  match r.enabled, r.repeats, r.kind, r.trigger with
  | some e, some rep, some k, some t =>
    if (r.period.map (within 1 3600)).getD true && (r.events.map (fun v => v.set.nonempty && !v.other)).getD true
        && (r.bandFilter.map (within 0 31)).getD true then
      some { enabled := e, repeats := rep, kind := k, trigger := t, period := r.period, events := r.events.map (·.set),
             bandFilter := r.bandFilter }
    else none
  | _, _, _, _ => none

/-- A source is one of R188's. -/
def AlarmSource.ok : AlarmSource → Bool
  | .bandDeclared n => within 0 31 n
  | _ => true

/-- The alarm line entry a write makes, or none when a value is not one of R188's. -/
def alarmOf (r : RawAlarm) : Option AlarmEntry :=
  match r.source, r.polarity with
  | some s, some p => if s.ok then some { source := s, polarity := p } else none
  | _, _ => none

/-! ## Elements and attachments (R6, R17) -/

/-- An element record passes the write-time conditions of R6. -/
def elementOk (r : RawElement) : Bool :=
  within 0 511 r.number && r.kind.isSome && (r.parent.map (within 0 511)).getD true
    && (if r.number = 0 then decide (r.delay = 0) else within 1 65535 r.delay)
    && (r.tapPorts.isSome == (r.kind == some .tap))
    && within 0 254 r.legAddress && (decide (r.number ≠ 0) || decide (r.legAddress = 0))

/-- The element a record that passes makes. -/
def elementOf (r : RawElement) : Element :=
  { kind := r.kind.getD .node, parent := r.parent, delay := r.delay, tapPorts := r.tapPorts, legAddress := r.legAddress }

/-- The position, from 1, of the first record that fails R6's conditions. -/
def firstBadElement : Nat → List RawElement → Option Nat
  | _, [] => none
  | i, r :: rest => if elementOk r then firstBadElement (i + 1) rest else some i

/-- An image's attachment record passes R17's value checks 1, 3 and 4, the port within 1..8 (R192). R192 leaves check 2 out,
so an element number above R16's 0..511 is not refused either (DESIGN CHOICE, notes/assumptions/19.md). -/
def attachImageOk (r : RawAttach) : Bool := r.station != 0 && within 1 8 r.port && within 0 2000 r.drop

/-- The attachment entry a request or record makes, VALID (R18, R193). -/
def attachmentOf (r : RawAttach) : Attachment :=
  { station := r.station, element := r.element, port := r.port, drop := r.drop, validity := .valid }

end Sys2Proof.Machine
end

