-- ==== Sys2Proof/Machine/MapGraph.lean ====
section
/-! DEFINITION. The tree of elements: paths, depth, leg counts, section heads, child legs and sections (R13, R14), and
validation (R12). -/

namespace Sys2Proof.Machine

/-- The chain of parents from an element, itself first, followed for at most `n` elements (R13). -/
def chainFrom (t : Table Element) : Nat → Nat → List Nat
  | 0, _ => []
  | n + 1, e =>
    e :: (match (tableGet t e).bind (·.parent) with
          | some p => chainFrom t n p
          | none => [])

/-- The path of an element (R14): at most 32 elements long in a READY map. -/
def pathOf (t : Table Element) (e : Nat) : List Nat := chainFrom t 32 e

/-- An element's leg address, 0 when it carries no leg unit or is absent (R1). -/
def legOf (t : Table Element) (e : Nat) : Nat := ((tableGet t e).map (·.legAddress)).getD 0

/-- An element carries a leg unit. -/
def carriesLeg (t : Table Element) (e : Nat) : Bool := legOf t e != 0

/-- The leg count of an element (R13). -/
def legCount (t : Table Element) (e : Nat) : Nat := ((pathOf t e).filter (carriesLeg t)).length

/-- A section head: element 0, or an element carrying a leg unit (R14). -/
def isHead (t : Table Element) (e : Nat) : Bool := e == 0 || carriesLeg t e

/-- The head above an element (R14). -/
def headAbove (t : Table Element) (e : Nat) : Option Nat := (pathOf t e).tail.find? (isHead t)

/-- The head in whose section an element lies: the first section head on its path, the element counted (R14). -/
def sectionHead (t : Table Element) (e : Nat) : Option Nat := (pathOf t e).find? (isHead t)

/-- The present elements in ascending number. -/
def elementNumbers (t : Table Element) : List Nat := t.map (·.1)

/-- The child legs of a section head, in ascending element number (R14). -/
def childLegs (t : Table Element) (h : Nat) : List Nat :=
  (elementNumbers t).filter (fun e => carriesLeg t e && headAbove t e == some h)

/-- The elements carrying leg units, in ascending number. -/
def legElements (t : Table Element) : List Nat := (elementNumbers t).filter (carriesLeg t)

/-- The leg addresses of a map (R119). -/
def legAddresses (t : Table Element) : List Nat := (legElements t).map (legOf t)

/-- The lowest-numbered element for which a test holds. -/
def lowest (t : Table Element) (test : Nat → Element → Bool) : Option Nat := (t.find? (fun p => test p.1 p.2)).map (·.1)

/-- The element check 1 reports (R12). -/
def rootFault (t : Table Element) : Option Nat :=
  match tableGet t 0 with
  | some r => if r.kind = .node ∧ r.parent = none then none else some 0
  | none => some 0

/-- A tap's port count is 2, 4 or 8 (R12, check 7). -/
def portsOk (p : Option (Fin 256)) : Bool := p == some 2 || p == some 4 || p == some 8

/-- The checks of R12 in their order, each with its reason and the element it reports. -/
def mapChecks (t : Table Element) : List (Option Nat × MapReason) :=
  [ (rootFault t, .rootInvalid),
    (lowest t (fun e r => e != 0 && r.kind == .node), .secondNode),
    (lowest t (fun e r => e != 0 && ((r.parent.bind (tableGet t)).isNone)), .parentMissing),
    (lowest t (fun _ r => r.kind == .port && r.parent != some 0), .portNotOnRoot),
    (lowest t (fun e _ => !(pathOf t e).contains 0), .depthExceeded),
    (lowest t (fun e r => r.kind == .lineEnd && t.any (fun p => p.2.parent == some e)), .lineEndHasChild),
    (lowest t (fun _ r => r.kind == .tap && !portsOk r.tapPorts), .tapPortsInvalid),
    (lowest t (fun e r => r.legAddress != 0 && t.any (fun p => decide (p.1 < e) && p.2.legAddress == r.legAddress)),
      .legAddressDuplicate),
    ((legElements t)[64]?, .legCountExceeded),
    (lowest t (fun e _ => decide (8 < legCount t e)), .legNestingExceeded),
    (lowest t (fun e _ => isHead t e && decide (16 < (childLegs t e).length)), .legFanoutExceeded) ]

/-- The first failing check of a validation (R12); `none` when the map is a valid tree. -/
def validate (t : Table Element) : Option MapError :=
  (mapChecks t).findSome? (fun c => c.1.map (fun e => { element := e, reason := c.2 }))

/-- An attachment entry still fits the map (R21). -/
def attachmentFits (t : Table Element) (a : Attachment) : Bool :=
  match tableGet t a.element with
  | some r => r.kind == .tap && decide (a.port ≤ (r.tapPorts.map (·.val)).getD 0)
  | none => false

/-- The attachment pass (R21): it marks and does not restore. -/
def attachmentPass (t : Table Element) (as : Table Attachment) : Table Attachment :=
  tableMap as (fun a => if attachmentFits t a then a else { a with validity := .stale })

/-- The index of the occupied entry that holds a station id (R16). -/
def indexOfStation (as : Table Attachment) (station : Word32) : Option (Nat × Attachment) :=
  as.find? (fun p => p.2.station == station)

end Sys2Proof.Machine
end

