-- ==== Sys2Proof/Machine/Prompt.lean ====
section
/-! DEFINITION. What the part begins in the very event that makes it possible: the execution of the request at the head
(R168) and the transaction the arbiter chooses on a free line (R113). Each beginning is a row of its own, so every other
event waits until neither is due (notes/assumptions/28.md). The analysis of a descriptor is not among them: other events
may come between an analysis's completion and the next one's beginning (R28). -/

namespace Sys2Proof.Machine

/-! ## Requests -/

/-- A request is at the head, none is executing, and the response queue has room: its execution begins now (R168). -/
def requestDue (s : State) : Bool :=
  s.mgmt.requests.head?.isSome && !s.mgmt.executing && decide (s.mgmt.responses.length < 4)

/-! ## The arbiter (R112, R113) -/

/-- An entry is not PASS (R107). -/
def TrackEntry.busy (e : TrackEntry) : Bool := e.state != .pass

/-- Every tracking entry is PASS (R112). -/
def allPass (entries : Table TrackEntry) : Bool := entries.all (fun p => !p.2.busy)

/-- A telemetry request that may start now: a STEP when every entry is PASS, a RELEASE or a QUERY always (R112, R113). -/
def mayStart (entries : Table TrackEntry) : TlmCommand → Bool
  | .step _ _ => allPass entries
  | .release => true
  | .query => true

/-- The request the arbiter starts (R113): the search's RELEASE, the head of the direct queue, the search's STEP. -/
def arbiterChoice (t : Telemetry) : Option (Requester × Nat × TlmCommand) :=
  let searchRelease := t.searchRequest.filter (fun q => q.command == .release)
  let directHead := t.directQueue.head?.filter (fun d => mayStart t.entries d.command)
  let searchStep := t.searchRequest.filter (fun q => q.command != .release && mayStart t.entries q.command)
  (searchRelease.map (fun q => (Requester.search, q.address, q.command)))
    <|> (directHead.map (fun d => (Requester.direct, d.address, d.command)))
    <|> (searchStep.map (fun q => (Requester.search, q.address, q.command)))

/-- The line is free and the arbiter has a request to start: its transaction starts now (R113). -/
def transactionDue (s : State) : Bool := s.tlm.transaction.isNone && (arbiterChoice s.tlm).isSome

/-! ## The turn of every other event -/

/-- Something begins now. -/
def somethingDue (s : State) : Bool := requestDue s || transactionDue s

/-- An event that is none of those beginnings takes effect once nothing is due to begin; before that it has no effect.
DEDUCED, notes/assumptions/28.md. -/
def inTurn (own : State → State) (s : State) : Host.Outcome State Fault Refusal :=
  if somethingDue s then .next s else .next (own s)

end Sys2Proof.Machine
end

