-- ==== Sys2Proof/Machine/Reporting.lean ====
section
/-! DEFINITION. Report slots and the report queue: writing a slot (R181), triggers (R182 to R185), resets (R191). -/

namespace Sys2Proof.Machine

/-- A trigger reaches an enabled slot: appended with a new trigger record, or counted where it stands (R182). -/
def enqueueSlot (slot : Nat) (cause : Cause) (q : List QueuedSlot) : List QueuedSlot :=
  if q.any (fun e => e.slot == slot) then
    q.map (fun e => if e.slot = slot then { e with count := bump e.count } else e)
  else q ++ [{ slot := slot, cause := cause, count := 1 }]

/-- A trigger reaches a slot; a disabled slot disregards it (R182). -/
def triggerSlot (slot : Nat) (cause : Cause) (r : Reports) : Reports :=
  match r.slots[slot]? with
  | some s => if s.entry.enabled then { r with queue := enqueueSlot slot cause r.queue } else r
  | none => r

/-- The band filter admits a band event (R185). -/
def filterAdmits (e : SlotEntry) (band : Nat) : Bool := e.bandFilter.isNone || e.bandFilter == some band

/-- An event matches a slot (R185). -/
def eventMatches (e : SlotEntry) (ev : Event) : Bool :=
  e.enabled && e.trigger == .onEvent &&
    (match e.events, ev with
     | none, _ => false
     | some set, .declare b _ _ => set.declare && filterAdmits e b
     | some set, .clear b _ => set.clear && filterAdmits e b
     | some set, .newSuspect => set.newSuspect
     | some set, .tallyFull => set.tallyFull
     | some set, .searchEnd _ _ => set.searchEnd)

/-- One event reaches the slots from `i` up, in ascending slot number (R182). -/
def raiseFrom (ev : Event) : Nat → List ReportSlot → List QueuedSlot → List QueuedSlot
  | _, [], q => q
  | i, s :: rest, q =>
    raiseFrom ev (i + 1) rest (if eventMatches s.entry ev then enqueueSlot i (.event ev) q else q)

/-- One event raised toward the report slots (R185). -/
def raiseEvent (r : Reports) (ev : Event) : Reports := { r with queue := raiseFrom ev 0 r.slots r.queue }

/-- Events raised in the order given (R65, R90, R182). -/
def raiseEvents (evs : List Event) (s : State) : State := { s with reports := evs.foldl raiseEvent s.reports }

/-- The period timer of an entry started now: running only for an enabled PERIODIC slot (R184). -/
def periodStart (now : Nat) (e : SlotEntry) : Option Nat :=
  if e.enabled && e.trigger == .periodic then e.period.map (fun p => now + seconds p) else none

/-- An accepted write of a slot entry (R181): the slot leaves the queue, its timer stops, the entry is replaced, an
enabled NOW slot is queued and an enabled PERIODIC slot's timer started. -/
def writeSlot (now slot : Nat) (e : SlotEntry) (r : Reports) : Reports :=
  let queue := r.queue.filter (fun x => x.slot != slot)
  { r with
    slots := r.slots.set slot { entry := e, due := periodStart now e }
    queue := if e.enabled && e.trigger == .now then enqueueSlot slot .now queue else queue }

/-- The slots from `i` up that are enabled with trigger NOW, each with a fresh trigger record (R183, R191). -/
def nowSlots : Nat → List ReportSlot → List QueuedSlot
  | _, [] => []
  | i, s :: rest =>
    if s.entry.enabled && s.entry.trigger == .now then { slot := i, cause := .now, count := 1 } :: nowSlots (i + 1) rest
    else nowSlots (i + 1) rest

/-- The reports block after RESET_ENGINES (R191): entries kept, period timers restarted, the queue emptied and every
enabled NOW slot queued. -/
def resetEnginesReports (now : Nat) (r : Reports) : Reports :=
  { r with slots := r.slots.map (fun s => { s with due := periodStart now s.entry }), queue := nowSlots 0 r.slots }

/-- Another slot's period timer expires before one that is due at a moment: at an earlier moment, or at the same moment
with a lower slot number, the order in which timers that expire together reach the queue (R182). -/
def timerBefore (slots : List ReportSlot) (slot due : Nat) : Bool :=
  (List.range slots.length).any (fun m =>
    (slots[m]?.bind (·.due)).any (fun d => decide (d < due) || (decide (d = due) && decide (m < slot))))

/-- The expiry of a slot's period timer (R184): the slot is triggered and its timer restarts with the period. A slot whose
timer does not run has no expiry, nor one whose turn has not come (R182; notes/assumptions/2.md). -/
def periodExpiry (slot : Nat) (s : State) : State :=
  match s.reports.slots[slot]? with
  | none => s
  | some x =>
    match x.due with
    | none => s
    | some due =>
      if timerBefore s.reports.slots slot due then s
      else
        let t := reach due s
        let r := triggerSlot slot .periodic t.reports
        { t with reports := { r with slots := r.slots.set slot { x with due := periodStart t.clocks.elapsed x.entry } } }

/-- PERIOD_TIMER_EXPIRY (R184). -/
def execPeriodTimerExpiry (slot : Nat) (s : State) : Host.Outcome State Fault Refusal := inTurn (periodExpiry slot) s

end Sys2Proof.Machine
end

