-- ==== Sys2Proof/Machine/TallyOps.lean ====
section
/-! DEFINITION. The placement walk (R43 to R48) and the suspect tally (R49 to R66): votes, promotion, replacement,
voter removal, aging, rank order, coincidence and clearing. -/

namespace Sys2Proof.Machine

/-! ## The placement walk -/

/-- The elements of a tap's path with their cumulative delays, the tap first with its drop delay (R43). -/
def cumulatives (t : Table Element) : Nat → List Nat → List (Nat × Nat)
  | _, [] => []
  | c, e :: rest => (e, c) :: cumulatives t (c + ((tableGet t e).map (·.delay)).getD 0) rest

/-- A key of the tally: element and place (R49). -/
abbrev Key := Nat × Place

/-- The element of a walk in whose segment a time lies: the last one whose cumulative is below it (R47). -/
def spanElement (walk : List (Nat × Nat)) (time : Int) : Option Nat :=
  ((walk.filter (fun p => decide ((p.2 : Int) < time))).getLast?).map (·.1)

/-- The cumulative delay of element 0, the last of the walk (R43). -/
def rootCumulative (walk : List (Nat × Nat)) : Nat := ((walk.getLast?).map (·.2)).getD 0

/-- Placement (R45 to R48): the result and the votes, in walk order. -/
def place (t : Table Element) (tap drop window : Nat) (time : Int) : PlacementResult × List Key :=
  let walk := cumulatives t drop (pathOf t tap)
  if time < (drop : Int) - window then (.drop, [(tap, .drop)])
  else
    match walk.filter (fun p => decide (((p.2 : Int) - time).natAbs ≤ window)) with
    | [] =>
      if time < (rootCumulative walk : Int) then
        (.span, ((spanElement walk time).map (fun e => (e, Place.span))).toList)
      else (.beyond, [])
    | near => (.placed, near.map (fun p => (p.1, Place.at)))

/-! ## Records -/

/-- The state that R50 fixes by the voter list and the promote threshold. -/
def stateFor (promote : Nat) (voters : List Nat) : SuspectState := if promote ≤ voters.length then .suspect else .watch

/-- The evaluation of a record and the event a rise raises (R57). -/
def evaluate (promote : Nat) (r : TallyRecord) : TallyRecord × List Event :=
  let st := stateFor promote r.voters
  ({ r with state := st }, if r.state = .watch ∧ st = .suspect then [.newSuspect] else [])

/-- The slot and record that hold a key (R49). -/
def findKey (records : Table TallyRecord) (k : Key) : Option (Nat × TallyRecord) :=
  records.find? (fun p => p.2.element == k.1 && p.2.place == k.2)

/-- Places in the order AT, SPAN, DROP (R53, R61). -/
def Place.rank : Place → Nat
  | .at => 0
  | .span => 1
  | .drop => 2

/-- The figures a record is compared by as a victim (R53). -/
def victimKey (r : TallyRecord) : List Nat := [r.votes, r.lastVote.toNat, r.element, r.place.rank]

/-- Lexicographic order of figures. -/
def lexLess : List Nat → List Nat → Bool
  | a :: as, b :: bs => decide (a < b) || (decide (a = b) && lexLess as bs)
  | _, _ => false

/-- The victim among the candidate WATCH records: those that no vote of this placement has touched (R53, R56). -/
def victim (records : Table TallyRecord) (touched : List Nat) : Option (Nat × TallyRecord) :=
  (records.filter (fun p => p.2.state == .watch && !touched.contains p.1)).foldl
    (fun best p => match best with
      | none => some p
      | some b => if lexLess (victimKey p.2) (victimKey b.2) then some p else some b) none

/-- What every vote of one placement carries (R56), and the promote threshold. -/
structure Ballot where
  index : Nat
  ratio : Nat
  time : Word32
  promote : Nat
  deriving DecidableEq, Repr

/-- The tally as the votes of one placement are applied to it: the slots they have touched, and the events raised. -/
structure Poll where
  tally : Tally
  touched : List Nat
  events : List Event
  deriving DecidableEq, Repr

/-- A new record as R52 creates it, before its evaluation. -/
def newRecord (b : Ballot) (k : Key) : TallyRecord :=
  { element := k.1, place := k.2, votes := 1, voters := [b.index], state := .watch, coincident := false, strongest := b.ratio,
    firstVote := b.time, lastVote := b.time }

/-- A record created in a slot (R52). -/
def createIn (b : Ballot) (k : Key) (slot : Nat) (p : Poll) : Poll :=
  let made := evaluate b.promote (newRecord b k)
  { tally := { p.tally with records := tableSet p.tally.records slot made.1 }
    touched := slot :: p.touched
    events := p.events ++ made.2 }

/-- A vote changes the record that holds its key (R51). -/
def voteFor (b : Ballot) (slot : Nat) (r : TallyRecord) (p : Poll) : Poll :=
  let voters := if r.voters.contains b.index || decide (8 ≤ r.voters.length) then r.voters else r.voters ++ [b.index]
  let r' := { r with votes := bump r.votes, voters := voters, lastVote := b.time, strongest := max r.strongest b.ratio }
  let made := if voters = r.voters then (r', []) else evaluate b.promote r'
  { tally := { p.tally with records := tableSet p.tally.records slot made.1 }
    touched := slot :: p.touched
    events := p.events ++ made.2 }

/-- One vote (R51 to R54): an existing record, a vacant slot, a victim's slot, or dropped with TALLY_FULL. -/
def vote (b : Ballot) (p : Poll) (k : Key) : Poll :=
  match findKey p.tally.records k with
  | some (slot, r) => voteFor b slot r p
  | none =>
    match lowestFree p.tally.records 256 0 with
    | some slot => createIn b k slot p
    | none =>
      match victim p.tally.records p.touched with
      | some (slot, _) => createIn b k slot { p with tally := { p.tally with replacement := bump p.tally.replacement } }
      | none => { p with tally := { p.tally with overflow := bump p.tally.overflow }, events := p.events ++ [.tallyFull] }

/-- The votes of one placement, each taken whole before the next (R56), and their events toward the slots (R65). -/
def castVotes (b : Ballot) (keys : List Key) (s : State) : State :=
  let p := keys.foldl (vote b) { tally := s.tally, touched := [], events := [] }
  raiseEvents p.events { s with tally := p.tally }

/-- A list of records evaluated in ascending slot order, with the events raised (R57). -/
def evaluateRecords (promote : Nat) (f : TallyRecord → Option TallyRecord) :
    Table TallyRecord → Table TallyRecord × List Event
  | [] => ([], [])
  | (slot, r) :: rest =>
    let tail := evaluateRecords promote f rest
    match f r with
    | none => ((slot, r) :: tail.1, tail.2)
    | some r' =>
      let made := evaluate promote r'
      ((slot, made.1) :: tail.1, made.2 ++ tail.2)

/-- Every record evaluated, as a change of P demands (R57). -/
def evaluateAll (s : State) : State :=
  let made := evaluateRecords s.mgmt.settings.promote some s.tally.records
  raiseEvents made.2 { s with tally := { s.tally with records := made.1 } }

/-- An attachment index taken out of every voter list that holds it, each such record evaluated (R58). -/
def removeVoter (index : Nat) (s : State) : State :=
  let made := evaluateRecords s.mgmt.settings.promote
    (fun r => if r.voters.contains index then some { r with voters := r.voters.filter (fun v => v != index) } else none)
    s.tally.records
  raiseEvents made.2 { s with tally := { s.tally with records := made.1 } }

/-- The records after an aging expiry (R60): votes halved, records at 0 removed. -/
def ageRecords (records : Table TallyRecord) : Table TallyRecord :=
  (tableMap records (fun r => { r with votes := r.votes / 2 })).filter (fun p => p.2.votes != 0)

/-- The aging timer's expiry (R59, R60): it restarts with the interval in force. -/
def agingExpiry (s : State) : State :=
  let t := reach s.tally.agingDue s
  { t with tally := { t.tally with
    records := ageRecords t.tally.records
    agingDue := after t t.mgmt.settings.aging } }

/-- AGING_EXPIRY (R59, R60). -/
def execAgingExpiry (s : State) : Host.Outcome State Fault Refusal := inTurn agingExpiry s

/-! ## Rank, coincidence, clearing -/

/-- A record precedes another in rank order (R61). -/
def rankBefore (a b : Nat × TallyRecord) : Bool :=
  decide (b.2.votes < a.2.votes) ||
    (decide (a.2.votes = b.2.votes) && lexLess [a.2.element, a.2.place.rank] [b.2.element, b.2.place.rank])

/-- The records in rank order, each with its slot (R61). -/
def ranked (records : Table TallyRecord) : Table TallyRecord := sortBy rankBefore records

/-- A record's reference element lies in the section of a head (R62): the element, for every place. -/
def inSection (t : Table Element) (h : Nat) (r : TallyRecord) : Bool := sectionHead t r.element == some h

/-- The records marked at the end of a search at a head (R62). -/
def markCoincident (t : Table Element) (h : Nat) (records : Table TallyRecord) : Table TallyRecord :=
  tableMap records (fun r => if inSection t h r then { r with coincident := true } else r)

/-- The coincidence list: the first four in rank order of the records so marked (R62). -/
def coincidenceList (t : Table Element) (h : Nat) (records : Table TallyRecord) : List CoincidentKey :=
  ((ranked (records.filter (fun p => inSection t h p.2))).take 4).map (fun p => { element := p.2.element, place := p.2.place })

/-- The tally emptied as the map leaves READY (R4, R55, R64): the two counts and the aging timer are kept. -/
def emptyTally (t : Tally) : Tally := { t with records := [] }

/-- The tally after RESET_ENGINES or RESET_ALL (R66): empty, counts 0, the aging timer restarted. -/
def resetTally (due : Nat) : Tally := { records := [], overflow := 0, replacement := 0, agingDue := due }

/-- The tally summary (R63). -/
def tallySummary (s : State) : TallySummary :=
  { records := s.tally.records.length
    suspects := (s.tally.records.filter (fun p => p.2.state == .suspect)).length
    coincident := (s.tally.records.filter (fun p => p.2.coincident)).length
    promote := s.mgmt.settings.promote
    overflow := s.tally.overflow
    replacement := s.tally.replacement }

end Sys2Proof.Machine
end

