-- ==== Sys2Proof/Machine/SearchOps.lean ====
section
/-! DEFINITION. The ingress search (R122 to R145): taking up legs, band notices, classification, the level decision,
early ends, the end of a search, and what the search learns of its transactions and of its leg's lapse. -/

namespace Sys2Proof.Machine

/-! ## What the search reads of the tracking table -/

/-- A leg address's entry is UNREACHABLE (R111). -/
def unreachable (entries : Table TrackEntry) (address : Nat) : Bool :=
  match tableGet entries address with
  | some e => !e.reachable
  | none => false

/-- The search posts its pending request (R114). -/
def post (address : Nat) (c : TlmCommand) (s : State) : State :=
  { s with tlm := { s.tlm with searchRequest := some { address := address, command := c } } }

/-- The search withdraws a pending request that has not started (R114). -/
def withdraw (s : State) : State := { s with tlm := { s.tlm with searchRequest := none } }

/-- The search record as it stands after a change. -/
def setSearch (r : SearchRecord) (s : State) : State := { s with search := { s.search with record := some r } }

/-! ## Legs, classification, the level decision -/

/-- The step of a level code, in tenths of a decibel (R101). -/
def stepOf (level : Nat) : Int := 60 * (level : Int)

/-- The level list of a head: its child legs in ascending element order (R122). -/
def levelList (t : Table Element) (h : Nat) : List Leg :=
  (childLegs t h).map (fun e => { element := e, address := legOf t e, cls := none, drop := none })

/-- The current leg. -/
def currentLeg (r : SearchRecord) : Option Leg := r.legs[r.current]?

/-- The current leg's address, 0 when there is none. -/
def currentAddress (r : SearchRecord) : Nat := ((currentLeg r).map (·.address)).getD 0

/-- A leg put at a position of the level list with its class and drop. -/
def setLeg (cls : LegClass) (drop : Option Int) (at' : Nat) (legs : List Leg) : List Leg :=
  match legs[at']? with
  | some l => legs.set at' { l with cls := some cls, drop := drop }
  | none => legs

/-- The current leg classified FULL, PARTIAL or NONE with its drop (R134, R136). -/
def classify (cls : LegClass) (d : Int) (r : SearchRecord) : SearchRecord :=
  { r with legs := setLeg cls (some d) r.current r.legs, measured := r.measured + 1 }

/-- The current leg classified UNKNOWN, with no drop (R134, R136): listed while the unknown list holds fewer than four. -/
def classifyUnknown (r : SearchRecord) : SearchRecord :=
  { r with
    legs := setLeg .unknown none r.current r.legs
    unknowns :=
      match currentLeg r with
      | some l => if r.unknowns.length < 4 then r.unknowns ++ [l.element] else r.unknowns
      | none => r.unknowns }

/-- The class a drop gives (R134). -/
def classOf (r : SearchRecord) (d : Int) : LegClass :=
  if r.step - r.mFull ≤ d then .full else if r.mLow ≤ d then .partialDrop else .noDrop

/-- The legs of a class as (element, class, drop) entries. -/
def legsOfClass (p : LegClass → Bool) (legs : List Leg) : List Secondary :=
  legs.filterMap (fun l => match l.cls, l.drop with
    | some c, some d => if p c then some { element := l.element, cls := c, drop := d } else none
    | _, _ => none)

/-- By drop, greatest first, the lower element number first on a tie (R136). -/
def dropBefore (a b : Secondary) : Bool := decide (b.drop < a.drop) || (decide (a.drop = b.drop) && decide (a.element < b.element))

/-- Secondary entries in the order of R136. -/
def byDrop (l : List Secondary) : List Secondary := sortBy dropBefore l

/-- What the search comes to: it runs on, or it has ended with an outcome at a head. -/
inductive Progress where
  | running (r : SearchRecord)
  | ended (r : SearchRecord) (o : SearchOutcome) (head : Nat)
  deriving DecidableEq, Repr

/-- The level decision (R135): a new head to descend to, or an end. -/
inductive Decision where
  | descend (head : Nat)
  | stop (o : SearchOutcome)
  deriving DecidableEq, Repr

/-- The level decision's cases in order (R135). -/
def decideLevel (legs : List Leg) : Decision :=
  match byDrop (legsOfClass (· == .full) legs) with
  | best :: _ => .descend best.element
  | [] =>
    if legs.any (fun l => l.cls == some .partialDrop) then .stop .split
    else if legs.any (fun l => l.cls == some .unknown) then .stop .inconclusive
    else .stop .localized

/-- The record after a descent (R135, R136): the path grows, the secondary list gathers the level's other legs, and the
new head's child legs become the level list. -/
def descendTo (t : Table Element) (head : Nat) (r : SearchRecord) : SearchRecord :=
  let others := legsOfClass (fun c => c == .full || c == .partialDrop) (r.legs.filter (fun l => l.element != head))
  { r with path := r.path ++ [head], secondary := (byDrop (others ++ r.secondary)).take 4, head := head,
           legs := levelList t head, current := 0 }

/-- The secondary list of a SPLIT end (R136). -/
def splitSecondary (r : SearchRecord) : List Secondary :=
  (byDrop (legsOfClass (· == .partialDrop) r.legs) ++ r.secondary).take 4

/-- A record in BASELINE for its current leg (R125). -/
def beginBaseline (r : SearchRecord) : SearchRecord :=
  { r with state := .baseline, peakSum := 0, collected := 0, baseline := none, measureDeadline := none }

/-- The search takes up legs from its current position (R125): UNREACHABLE legs are classified at once, a reachable one
begins its baseline, and past the last leg the level decision is made (R135). The fuel bounds legs and levels: a READY
map has at most 64 legs and nine levels (R12). -/
def takeUp (t : Table Element) (entries : Table TrackEntry) : Nat → SearchRecord → Progress
  | 0, r => .running r
  | n + 1, r =>
    match currentLeg r with
    | some l =>
      if unreachable entries l.address then
        let r' := classifyUnknown r
        takeUp t entries n { r' with current := r'.current + 1 }
      else .running (beginBaseline r)
    | none =>
      match decideLevel r.legs with
      | .stop .split => .ended { r with secondary := splitSecondary r } .split r.head
      | .stop o => .ended r o r.head
      | .descend head =>
        let r' := descendTo t head r
        if r'.legs = [] then .ended r' .localized head else takeUp t entries n r'

/-! ## The end of a search (R140 to R142) -/

/-- The result log with one more result, at most eight kept, oldest first (R142). -/
def logResult (log : List SearchResult) (x : SearchResult) : List SearchResult := (log.drop (log.length - 7)) ++ [x]

/-- The search ends (R140): the tally is marked for LOCALIZED and SPLIT, the result is logged, SEARCH_END is raised,
the pending request is gone and the record becomes IDLE. -/
def endSearch (r : SearchRecord) (o : SearchOutcome) (head : Nat) (s : State) : State :=
  let marks := o = .localized ∨ o = .split
  let records := if marks then markCoincident s.map.elements head s.tally.records else s.tally.records
  let result : SearchResult :=
    { number := r.number, band := r.band, level := r.level, outcome := o, head := head, path := r.path,
      secondary := r.secondary, unknowns := r.unknowns,
      coincidence := if marks then coincidenceList s.map.elements head s.tally.records else [],
      measured := r.measured, startTime := r.startTime, endTime := s.clocks.plantTime }
  raiseEvents [.searchEnd r.number o]
    { s with
      tally := { s.tally with records := records }
      tlm := { s.tlm with searchRequest := none }
      search := { s.search with record := none, log := logResult s.search.log result } }

/-- What the search has come to takes effect. -/
def settle (p : Progress) (s : State) : State :=
  match p with
  | .running r => setSearch r s
  | .ended r o head => endSearch r o head s

/-- Enough fuel for every leg and level of a READY map (R12). -/
def searchFuel : Nat := 80

/-- The current leg is done (R130, R131): the next one is taken up or the level decision made. -/
def nextLeg (r : SearchRecord) (s : State) : State :=
  settle (takeUp s.map.elements s.tlm.entries searchFuel { r with current := r.current + 1 }) s

/-! ## Ending early (R137, R138) -/

/-- The search enters a state that waits for the current leg's release, its RELEASE posted (R127 to R129, R138). -/
def postRelease (r : SearchRecord) (st : RunState) (s : State) : State :=
  post (currentAddress r) .release (setSearch { r with state := st, measureDeadline := none } s)

/-- The measure in progress is discarded (R129, R138): in MEASURE the peaks collected are. -/
def discardMeasure (r : SearchRecord) : SearchRecord :=
  if r.state = .measure then { r with peakSum := 0, collected := 0 } else r

/-- An end cause is taken (R137, R138): the first one stands, and a held leg is released before the end. -/
def fixCause (cause : SearchOutcome) (s : State) : State :=
  match s.search.record with
  | none => s
  | some r =>
    let r' := { r with cause := some cause }
    match r.state with
    | .ending => s
    | .baseline => endSearch r cause r.head s
    | .stepping =>
      if s.tlm.searchRequest.isSome then endSearch r cause r.head (withdraw s)
      else setSearch { r' with state := .ending } s
    | .settle => postRelease r' .ending s
    | .measure => postRelease (discardMeasure r') .ending s
    | .releasing => setSearch { r' with state := .ending } s
    | .releaseWait => setSearch { r' with state := .ending } s

/-! ## Band notices (R126, R128, R129, R132) -/

/-- A peak collected in BASELINE (R126): the K-th sets the baseline and posts the STEP. -/
def collectBaseline (peak : Int) (r : SearchRecord) (s : State) : State :=
  let sum := r.peakSum + peak
  let n := r.collected + 1
  if r.k ≤ n then
    post (currentAddress r) (.step r.level r.hold)
      (setSearch { r with state := .stepping, peakSum := sum, collected := n, baseline := some (sum / (r.k : Int)) } s)
  else setSearch { r with peakSum := sum, collected := n } s

/-- A sweep passed over in SETTLE (R128). -/
def passSettle (r : SearchRecord) (s : State) : State :=
  if r.settle ≤ 1 then setSearch { r with settle := 0, peakSum := 0, collected := 0, state := .measure } s
  else setSearch { r with settle := r.settle - 1 } s

/-- A peak collected in MEASURE (R129): the K-th classifies the leg by its drop and posts the RELEASE. -/
def collectMeasure (peak : Int) (r : SearchRecord) (s : State) : State :=
  let sum := r.peakSum + peak
  let n := r.collected + 1
  if r.k ≤ n then
    let d := r.baseline.getD 0 - sum / (r.k : Int)
    postRelease (classify (classOf r d) d { r with peakSum := sum, collected := n }) .releasing s
  else setSearch { r with peakSum := sum, collected := n } s

/-- A band notice reaches the search (R91): a change to CLEAR ends it (R137); otherwise its state decides. -/
def searchNotice (peak : Int) (cleared : Bool) (s : State) : State :=
  match s.search.record with
  | none => s
  | some r =>
    if cleared then fixCause .ingressGone s
    else
      match r.state with
      | .baseline => collectBaseline peak r s
      | .settle => passSettle r s
      | .measure => collectMeasure peak r s
      | .stepping => s
      | .releasing => s
      | .releaseWait => s
      | .ending => s

/-! ## Outcomes and lapses (R127, R130, R131, R138) -/

/-- ACK_STEP in STEPPING (R127): the measure deadline is send time + H, and SETTLE or, with Sk 0, MEASURE begins, the settle
remaining then as it was. -/
def stepAcknowledged (sentAt : Nat) (r : SearchRecord) (s : State) : State :=
  let r' := { r with measureDeadline := some (sentAt + seconds r.hold) }
  if 1 ≤ r.sk then setSearch { r' with settle := r.sk, state := .settle } s
  else setSearch { r' with peakSum := 0, collected := 0, state := .measure } s

/-- The outcome of one of the search's transactions reaches it (R114): a reply, or TIMEOUT (`none`). An outcome that
does not concern the leg the search is working on is disregarded (R130). -/
def searchOutcome (tx : Transaction) (reply : Option Reply) (s : State) : State :=
  match s.search.record with
  | none => s
  | some r =>
    if tx.address ≠ currentAddress r then s
    else
      match r.state, tx.command, reply with
      | .stepping, .step _ _, some _ => stepAcknowledged tx.sentAt r s
      | .stepping, .step _ _, none => postRelease (classifyUnknown r) .releasing s
      | .releasing, .release, some _ => nextLeg r s
      | .releasing, .release, none => setSearch { r with state := .releaseWait } s
      | .ending, .step _ _, _ => postRelease r .ending s
      | .ending, .release, some _ => endSearch r (r.cause.getD .aborted) r.head s
      | _, _, _ => s

/-- The controller tells the search that its leg has lapsed to PASS (R110, R130, R131, R138). -/
def searchLapse (address : Nat) (s : State) : State :=
  match s.search.record with
  | none => s
  | some r =>
    if address ≠ currentAddress r then s
    else
      match r.state with
      | .releasing => nextLeg r (withdraw s)
      | .releaseWait => nextLeg r s
      | .ending => endSearch r (r.cause.getD .aborted) r.head s
      | .baseline => s
      | .stepping => s
      | .settle => s
      | .measure => s

/-- The measure deadline is reached (R128, R129): in SETTLE or MEASURE the leg is UNKNOWN, a measure in progress is
discarded and the leg's RELEASE is posted; in any other state the deadline is absent and has no effect. -/
def measureExpiry (s : State) : State :=
  match s.search.record with
  | none => s
  | some r =>
    match r.measureDeadline with
    | none => s
    | some due =>
      if r.state = .settle ∨ r.state = .measure then
        postRelease (classifyUnknown (discardMeasure r)) .releasing (reach due s)
      else s

/-- MEASURE_DEADLINE (R128, R129). -/
def execMeasureDeadline (s : State) : Host.Outcome State Fault Refusal := inTurn measureExpiry s

/-- The search after a reset (R145): IDLE without a result, the log emptied, the next number 1. -/
def resetSearch : Search := { record := none, log := [], nextNumber := 1 }

end Sys2Proof.Machine
end

