-- ==== Sys2Proof/Machine/Telemetry.lean ====
section
/-! DEFINITION. The telemetry controller (R101 to R121): frames and their check, the arbiter, transactions and the
watchdog, the leg tracking table, lapses, the rebuild and the resets, with the commands of the telemetry line. -/

namespace Sys2Proof.Machine

/-! ## Telemetry frames (R104) -/

/-- A check is good: the sum of all bytes is a multiple of 256 (R104). -/
def checkGood (bytes : List Byte) : Bool := bytes.foldl (· + ·) (0 : Byte) == 0

/-- The check of the other bytes of a frame (R104). -/
def checkByte (bytes : List Byte) : Byte := 0 - bytes.foldl (· + ·) (0 : Byte)

/-- The six bytes of a command frame (R104). -/
def commandFrame (address : Nat) (c : TlmCommand) : List Byte :=
  let body : List Byte :=
    match c with
    | .step level h => [0xD1, BitVec.ofNat 8 address, 0x01, BitVec.ofNat 8 level, BitVec.ofNat 8 h]
    | .release => [0xD1, BitVec.ofNat 8 address, 0x02, 0, 0]
    | .query => [0xD1, BitVec.ofNat 8 address, 0x03, 0, 0]
  body ++ [checkByte body]

/-- Reply codes (R104). -/
def replyCode (b : Byte) : Option ReplyCode :=
  if b = 0x81 then some .ackStep
  else if b = 0x82 then some .ackRelease
  else if b = 0x83 then some .releasedAlready
  else if b = 0x84 then some .state
  else none

/-- The reply kinds that answer a command (R104). -/
def TlmCommand.matched (c : TlmCommand) (k : ReplyCode) : Bool :=
  match c, k with
  | .step _ _, .ackStep => true
  | .release, .ackRelease => true
  | .release, .releasedAlready => true
  | .query, .state => true
  | _, _ => false

/-- The reply a complete frame carries when it is valid for a waiting transaction (R105). -/
def validReply (tx : Transaction) (f : List Byte) : Option Reply :=
  if f.length = 7 ∧ byteAt f 0 = 0xD2 ∧ checkGood f = true ∧ (byteAt f 1).toNat = tx.address then
    match replyCode (byteAt f 2) with
    | some k =>
      if tx.command.matched k then
        some { code := k, unitState := byteAt f 3, level := byteAt f 4, hold := byteAt f 5 }
      else none
    | none => none
  else none

/-! ## The tracking table (R107 to R111) -/

/-- An entry becomes PASS: owner and deadline absent (R109, R110). -/
def TrackEntry.toPass (e : TrackEntry) : TrackEntry := { e with state := .pass, owner := none, deadline := none }

/-- What the start of a transaction makes of its entry (R108, R109); `due` is the moment a STEP's step has lapsed by. -/
def entryAtStart (c : TlmCommand) (who : Requester) (due : Nat) (e : TrackEntry) : TrackEntry :=
  match c with
  | .step _ _ => { e with state := .stepSent, owner := some who, deadline := some due }
  | .release => if e.busy then { e with state := .releaseSent } else e
  | .query => e

/-- What the end of a transaction makes of its entry's state (R108, R109). -/
def entryAtEnd (c : TlmCommand) (reply : Option Reply) (e : TrackEntry) : TrackEntry :=
  match c, reply with
  | .step _ _, some _ => if e.state = .stepSent then { e with state := .stepped } else e
  | .step _ _, none => e
  | .release, some _ => e.toPass
  | .release, none => if e.state = .releaseSent then { e with state := .unconfirmed } else e
  | .query, _ => e

/-- What the end of a transaction makes of its entry's reachability figures (R111). -/
def reachability (now : Word32) (reply : Option Reply) (e : TrackEntry) : TrackEntry :=
  match reply with
  | some _ => { e with reachable := true, timeouts := 0, lastReply := some now }
  | none =>
    let n := min 3 (e.timeouts + 1)
    { e with timeouts := n, failures := bump e.failures, reachable := e.reachable && decide (n < 3) }

/-- The retained entry is gone once it is PASS and no transaction to its address is in progress (R119). -/
def dropRetained (t : Telemetry) : Telemetry :=
  let goes := fun (p : Nat × TrackEntry) => p.2.retained && !p.2.busy && !(t.transaction.any (fun tx => tx.address == p.1))
  { t with entries := t.entries.filter (fun p => !goes p) }

/-- The new entry of an address that enters the table (R119). -/
def newEntry : TrackEntry :=
  { state := .pass, owner := none, deadline := none, reachable := true, timeouts := 0, failures := 0, lastReply := none,
    retained := false }

/-- The tracking table rebuilt against a set of leg addresses (R119): entries in the set kept, missing ones made,
others removed if PASS and retained if not. -/
def rebuild (addresses : List Nat) (t : Telemetry) : Telemetry :=
  let kept := (t.entries.filter (fun p => addresses.contains p.1 || p.2.busy)).map
    (fun p => (p.1, { p.2 with retained := !addresses.contains p.1 }))
  let add := fun (es : Table TrackEntry) (a : Nat) => if (tableGet es a).isSome then es else tableSet es a newEntry
  { t with entries := addresses.foldl add kept }

/-- The search holds a leg address (R114). -/
def searchHolds (s : State) (address : Nat) : Bool :=
  s.tlm.searchRequest.any (fun q => q.address == address)
    || s.tlm.transaction.any (fun x => x.requester == .search && x.address == address)
    || (s.search.record.isSome
        && (tableGet s.tlm.entries address).any (fun e => e.busy && e.owner == some .search))

/-! ## The start of a transaction (R106, R108, R109, R113) -/

/-- The hold a command carries, in seconds. -/
def TlmCommand.holdSeconds : TlmCommand → Nat
  | .step _ h => h
  | .release => 0
  | .query => 0

/-- The moment by which a unit's step has certainly lapsed (R108, R110): counted from the send, since the part never learns
when the unit took the command, and 2 s beyond the hold, which cover the watchdog span and the two timekeepings (R103). -/
def lapseMoment (sentAt hold : Nat) : Nat := sentAt + seconds (hold + 2)

/-- A transaction starts on a free line (R106): the command frame is put on the line, TLM_SENT counted, the watchdog started with
the span in force, the entry changed (R108, R109), the request gone from where it waited, and a reply frame being
assembled discarded (R105). -/
def startTransaction (who : Requester) (address : Nat) (c : TlmCommand) (s : State) : State :=
  let now := s.clocks.elapsed
  { s with tlm := { s.tlm with
      entries := tableModify s.tlm.entries address (entryAtStart c who (lapseMoment now c.holdSeconds))
      transaction := some { address := address, command := c, requester := who, sentAt := now,
                            watchdog := now + 2 * s.mgmt.settings.watchdog }
      searchRequest := if who = .search then none else s.tlm.searchRequest
      directQueue := if who = .direct then s.tlm.directQueue.tail else s.tlm.directQueue
      assembling := []
      line := commandFrame address c
      sent := bump s.tlm.sent } }

/-- TLM_TRANSACTION_START (R106, R113): on a free line the arbiter starts the request it chooses, if any. -/
def execTlmTransactionStart (s : State) : Host.Outcome State Fault Refusal :=
  match s.tlm.transaction, arbiterChoice s.tlm with
  | none, some (who, address, c) => .next (startTransaction who address c s)
  | _, _ => .next s

/-! ## The end of a transaction (R106, R118) -/

/-- A transaction ends by a valid reply or by TIMEOUT (`none`): its entry changes, then its figures, a retained entry
that is PASS goes, and the outcome goes to its requester (R106, R108, R109, R111, R114, R118, R119). -/
def endTransaction (tx : Transaction) (reply : Option Reply) (s : State) : State :=
  let changed := tableModify s.tlm.entries tx.address
    (fun e => reachability s.clocks.plantTime reply (entryAtEnd tx.command reply e))
  let t := { s with tlm := dropRetained { s.tlm with entries := changed, transaction := none } }
  match tx.requester with
  | .search => searchOutcome tx reply t
  | .direct =>
    answerHead (if reply.isSome then .ok else .timeout)
      (.direct tx.address reply ((tableGet changed tx.address).map (fun e => (e.state, e.reachable)))) t

/-- A complete reply frame is examined (R105): valid, it ends the waiting transaction; otherwise it is ignored and counted. -/
def examineReply (f : List Byte) (s : State) : State :=
  let t := { s with tlm := { s.tlm with assembling := [] } }
  match s.tlm.transaction.bind (fun tx => (validReply tx f).map (fun r => (tx, r))) with
  | some (tx, r) => endTransaction tx (some r) t
  | none => { t with tlm := { t.tlm with ignored := bump t.tlm.ignored } }

/-- The bytes of a frame begin with those given. -/
def startsWith (f : List Byte) (start : List Byte) : Bool := f.take start.length == start

/-- A frame in assembly, or one heard whole, is complete with its seven bytes (R105). Bytes that are no such frame make no
such event (notes/assumptions/2.md). -/
def hearFrame (f : List Byte) (s : State) : State :=
  if f.length = 7 ∧ byteAt f 0 = 0xD2 ∧ startsWith f s.tlm.assembling = true then examineReply f s else s

/-- TLM_REPLY_FRAME (R105). -/
def execTlmReplyFrame (f : List Byte) (s : State) : Host.Outcome State Fault Refusal := inTurn (hearFrame f) s

/-- A byte heard while the line is not sending begins a frame, adds to the one being assembled, or is discarded; the
seventh byte completes the frame (R105). -/
def hearByte (b : Byte) (s : State) : State :=
  let bytes := s.tlm.assembling ++ [b]
  if s.tlm.assembling = [] ∧ b ≠ 0xD2 then s
  else if bytes.length < 7 then { s with tlm := { s.tlm with assembling := bytes } }
  else examineReply bytes s

/-- BYTE_HEARD (R105). -/
def execByteHeard (b : Byte) (s : State) : Host.Outcome State Fault Refusal := inTurn (hearByte b) s

/-- The watchdog of the waiting transaction expires (R106): it ends TIMEOUT and is counted. -/
def watchdogExpiry (s : State) : State :=
  match s.tlm.transaction with
  | none => s
  | some tx =>
    let t := reach tx.watchdog s
    endTransaction tx none { t with tlm := { t.tlm with timeout := bump t.tlm.timeout } }

/-- TLM_WATCHDOG_EXPIRY (R106). -/
def execTlmWatchdogExpiry (s : State) : Host.Outcome State Fault Refusal := inTurn watchdogExpiry s

/-! ## Lapses (R110) -/

/-- A deadline that comes earlier stands in the way of a leg's lapse: the watchdog of the STEP that set it (R108), or the
search's measure deadline (R129). -/
def lapseForestalled (s : State) (address : Nat) : Bool :=
  s.tlm.transaction.any (fun tx => tx.address == address && (match tx.command with | .step _ _ => true | _ => false))
    || s.search.record.any (fun r => currentAddress r == address && (r.state == .settle || r.state == .measure))

/-- An entry not PASS becomes PASS when the elapsed-time base reaches its lapse deadline (R110); a retained entry goes
(R119), and the search is told if it held the entry. -/
def lapse (address : Nat) (s : State) : State :=
  match tableGet s.tlm.entries address with
  | none => s
  | some e =>
    match e.deadline with
    | none => s
    | some due =>
      if e.busy && !lapseForestalled s address then
        let held := searchHolds s address
        let t := reach due s
        let u := { t with tlm := dropRetained { t.tlm with entries := tableModify t.tlm.entries address TrackEntry.toPass } }
        if held then searchLapse address u else u
      else s

/-- LAPSE_DEADLINE (R110). -/
def execLapseDeadline (address : Nat) (s : State) : Host.Outcome State Fault Refusal := inTurn (lapse address) s

/-! ## Resets (R120) -/

/-- What RESET_ENGINES makes of an entry (R120): not PASS becomes UNCONFIRMED with owner and deadline kept, and the
reachability figures start afresh. -/
def entryAtReset (e : TrackEntry) : TrackEntry :=
  { e with state := if e.busy then .unconfirmed else .pass, reachable := true, timeouts := 0, failures := 0, lastReply := none }

/-- The controller after RESET_ENGINES (R120). A retained entry in PASS that waited for an abandoned transaction
goes. The bytes already on the line stay what they were. -/
def resetEnginesTelemetry (t : Telemetry) : Telemetry :=
  dropRetained
    { entries := tableMap t.entries entryAtReset, transaction := none, searchRequest := none, directQueue := [],
      assembling := [], line := t.line, sent := 0, timeout := 0, ignored := 0 }

end Sys2Proof.Machine
end

