-- ==== Sys2Proof/Machine/EchoOps.lean ====
section
/-! DEFINITION. Echo analysis (R23 to R42): the intake of descriptors, the echo arithmetic, the analysis operation, and
the hand-off to placement. -/

namespace Sys2Proof.Machine

/-! ## The echo arithmetic (R35 to R41) -/

/-- The energy of a tap (R35). -/
def energy (p : Int × Int) : Int := p.1 * p.1 + p.2 * p.2

/-- The energies of the 24 taps (R35). -/
def energies (taps : List (Int × Int)) : List Int := taps.map energy

/-- E_j, 0 where there is no such tap. -/
def energyAt (es : List Int) (j : Nat) : Int := es.getD j 0

/-- The main-tap energy E_8 (R35). -/
def mainEnergy (es : List Int) : Int := energyAt es 8

/-- The equalizer is invalid (R36). -/
def eqInvalid (es : List Int) : Bool :=
  mainEnergy es == 0 || (List.range 24).any (fun j => j != 8 && decide (mainEnergy es ≤ energyAt es j))

/-- The post-main tap numbers 9..23. -/
def postMain : List Nat := (List.range 15).map (· + 9)

/-- A post-main tap qualifies (R37). -/
def qualifies (es : List Int) (t : Nat) (k : Nat) : Bool := decide ((t : Int) * mainEnergy es ≤ energyAt es k * 65536)

/-- The echo tap (R37): the qualifying tap of greatest energy, the lowest index among equals. -/
def echoTap (es : List Int) (t : Nat) : Option Nat :=
  (postMain.filter (qualifies es t)).foldl
    (fun best k => match best with
      | none => some k
      | some b => if energyAt es b < energyAt es k then some k else some b) none

/-- The multiplier of a rate class (R23). -/
def RateClass.multiplier : RateClass → Nat
  | .r512 => 1
  | .r256 => 2
  | .r128 => 4

/-- The echo ratio (R38). -/
def echoRatio (es : List Int) (k : Nat) : Nat := (min 65535 (energyAt es k * 65536 / mainEnergy es)).toNat

/-- The sub-tap offset in sixteenths of a symbol (R39). -/
def subTapOffset (es : List Int) (k : Nat) : Int :=
  let a := if k = 9 then 0 else energyAt es (k - 1)
  let b := energyAt es k
  let c := if k = 23 then 0 else energyAt es (k + 1)
  roundAway (16 * (c - a)) (a + b + c)

/-- The delay after the main tap in sixteenths of a symbol (R40). -/
def delay16 (k : Nat) (offset16 : Int) : Int := 16 * ((k : Int) - 8) + offset16

/-- The one-way time in tenth-ns (R41). -/
def oneWayTime (d16 : Int) (m : Nat) : Int := roundHalfUp (d16 * (m : Int) * 15625) 256

/-- The figures of an echo at tap k with multiplier m (R38 to R41). -/
def echoFigures (es : List Int) (k m : Nat) : EchoFigures :=
  let o := subTapOffset es k
  let d := delay16 k o
  { tap := k, ratio := echoRatio es k, offset16 := o, delay16 := d, time := oneWayTime d m }

/-! ## Intake (R25 to R27) -/

/-- The descriptor a frame of the layout's length carries (R148): I and Q of tap j at bytes 18 + 4j and 20 + 4j. -/
def descriptorOf (f : Frame) : Descriptor :=
  { station := BitVec.ofNat 32 (beNat (field f 6 4))
    channel := (byteAt f 10).toNat
    taps := (List.range 24).map (fun j => (beInt16 (field f (18 + 4 * j) 2), beInt16 (field f (20 + 4 * j) 2))) }

/-- A good-CRC BURST_DESC frame reaches echo analysis (R25, R26, R27). -/
def offerDescriptor (f : Frame) (e : Echo) : Echo :=
  if f.length ≠ 128 then { e with counters := { e.counters with malformed := bump e.counters.malformed } }
  else if e.queue.length < 16 then
    { e with queue := e.queue ++ [descriptorOf f], counters := { e.counters with accepted := bump e.counters.accepted } }
  else { e with counters := { e.counters with notAnalysed := bump e.counters.notAnalysed } }

/-! ## The analysis (R28 to R34) -/

/-- The suppression test for a tap (R30). -/
def suppressed (s : State) (tap : Nat) : Bool :=
  (pathOf s.map.elements tap).any (fun g =>
    carriesLeg s.map.elements g && (tableGet s.tlm.entries (legOf s.map.elements g)).any (fun e => e.busy))

/-- What an analysis comes to at its beginning (R29): the first condition that holds fixes the outcome; otherwise the
echo is computed and the attachment noted. -/
def analysisStage (d : Descriptor) (taken : Option Channel) (s : State) : AnalysisStage :=
  if s.map.state ≠ .ready then .fixed .mapNotReady
  else
    match taken.filter (·.enabled) with
    | none => .fixed .channelOff
    | some c =>
      match (indexOfStation s.map.attachments d.station).filter (fun p => p.2.validity == .valid) with
      | none => .fixed .unknownStation
      | some (index, a) =>
        if suppressed s a.element then .fixed .suppressed
        else if eqInvalid (energies d.taps) then .fixed .eqInvalid
        else
          match echoTap (energies d.taps) c.threshold with
          | none => .fixed .clean
          | some k => .echo index a.element a.port (echoFigures (energies d.taps) k c.rate.multiplier)

/-- With a descriptor queued and no analysis in progress, the oldest entry's analysis begins with the channel values as they
stand (R28, R29). Otherwise none begins (notes/assumptions/2.md). -/
def beginAnalysis (s : State) : State :=
  match s.echo.queue, s.echo.analysis with
  | d :: _, none =>
    let taken := s.echo.channels[d.channel]?
    { s with echo := { s.echo with
      analysis := some { taken := taken, mapLeft := false, stage := analysisStage d taken s } } }
  | _, _ => s

/-- ANALYSIS_BEGIN (R28). -/
def execAnalysisBegin (s : State) : Host.Outcome State Fault Refusal := inTurn beginAnalysis s

/-- The counter of an outcome incremented (R32). -/
def countOutcome (o : AnalysisOutcome) (c : IntakeCounters) : IntakeCounters :=
  match o with
  | .mapNotReady => { c with mapNotReady := bump c.mapNotReady }
  | .channelOff => { c with channelOff := bump c.channelOff }
  | .unknownStation => { c with unknownStation := bump c.unknownStation }
  | .suppressed => { c with suppressed := bump c.suppressed }
  | .eqInvalid => { c with eqInvalid := bump c.eqInvalid }
  | .clean => { c with clean := bump c.clean }
  | .result .placed => { c with placed := bump c.placed }
  | .result .drop => { c with drop := bump c.drop }
  | .result .span => { c with span := bump c.span }
  | .result .beyond => { c with beyond := bump c.beyond }

/-- The analysis is over with an outcome: it is counted and the head entry leaves the queue (R28, R32). -/
def finishAnalysis (o : AnalysisOutcome) (s : State) : State :=
  { s with echo := { s.echo with
      queue := s.echo.queue.tail
      analysis := none
      counters := countOutcome o s.echo.counters } }

/-- The hand-off check (R31): the outcome it fixes, or the drop delay the attachment entry holds now (R42). -/
def handOffCheck (a : Analysis) (station : Word32) (index element port : Nat) (s : State) : AnalysisOutcome ⊕ Nat :=
  if a.mapLeft ∨ s.map.state ≠ .ready then .inl .mapNotReady
  else
    match (tableGet s.map.attachments index).filter (fun x =>
        x.station == station && x.validity == .valid && x.element == element && x.port == port) with
    | none => .inl .unknownStation
    | some x => if suppressed s x.element then .inl .suppressed else .inr x.drop

/-- The analysis in progress completes (R28, R31, R42): an outcome fixed at the beginning stands; an echo is examined again,
placed, its votes cast and the latest echo record replaced. With no analysis in progress none completes
(notes/assumptions/2.md). -/
def completeAnalysis (s : State) : State :=
  match s.echo.analysis, s.echo.queue with
  | some a, d :: _ =>
    match a.stage with
    | .fixed o => finishAnalysis o s
    | .echo index element port fig =>
      match handOffCheck a d.station index element port s with
      | .inl o => finishAnalysis o s
      | .inr drop =>
        let placed := place s.map.elements element drop s.mgmt.settings.window fig.time
        let ballot : Ballot :=
          { index := index, ratio := fig.ratio, time := s.clocks.plantTime, promote := s.mgmt.settings.promote }
        let t := castVotes ballot placed.2 s
        finishAnalysis (.result placed.1)
          { t with echo := { t.echo with
              latest := some { station := d.station, channel := d.channel, figures := fig, result := placed.1 } } }
  | _, _ => s

/-- ANALYSIS_COMPLETION (R28). -/
def execAnalysisCompletion (s : State) : Host.Outcome State Fault Refusal := inTurn completeAnalysis s

/-- Echo analysis after RESET_ENGINES or RESET_ALL (R34), with the channel table given. -/
def resetEcho (channels : List Channel) : Echo :=
  { channels := channels, queue := [], analysis := none, counters := zeroCounters, latest := none }

/-- The map leaves READY: an analysis in progress will find that it has (R4, R31). -/
def noteMapLeft (e : Echo) : Echo := { e with analysis := e.analysis.map (fun a => { a with mapLeft := true }) }

end Sys2Proof.Machine
end

