-- ==== Sys2Proof/Machine/BandOps.lean ====
section
/-! DEFINITION. Band watch (R81 to R100): classification of a corrected sweep, runs, states and events, burst lengths and
interval counts, the interval timer, and what a write or a reset makes of a band. -/

namespace Sys2Proof.Machine

/-- The classes of a sweep for one band (R87). -/
inductive SweepClass where
  | hot
  | cold
  | neither
  deriving DecidableEq, Repr

/-- The corrected levels of a band's bins (R87). -/
def bandLevels (b : Band) (levels : List Level) : List Level := (levels.drop b.start).take (b.stop + 1 - b.start)

/-- The peak: the greatest level (R87). -/
def peakOf : List Level → Level
  | [] => -1000
  | [x] => x
  | x :: y :: rest => max x (peakOf (y :: rest))

/-- The hot-bin count: bins at F + Md or above (R87). -/
def hotBins (b : Band) (levels : List Level) : Nat :=
  (levels.filter (fun x => decide (b.floor + b.declareMargin ≤ x))).length

/-- The class of a sweep for a band, from its bins' levels (R87). -/
def classifySweep (b : Band) (bins : List Level) : SweepClass :=
  let above := peakOf bins - b.floor
  if b.declareMargin ≤ above ∧ b.minBins ≤ hotBins b bins then .hot
  else if above < b.clearMargin then .cold
  else .neither

/-- The runs after a classification (R88). -/
def runsAfter (c : SweepClass) (hot cold : Nat) : Nat × Nat :=
  match c with
  | .hot => (min 15 (hot + 1), 0)
  | .cold => (0, min 15 (cold + 1))
  | .neither => (0, 0)

/-- The state after the runs are updated (R89). -/
def stateAfter (b : Band) (hot cold : Nat) : BandState → BandState
  | .clear => if b.declareCount ≤ hot then .declared else .clear
  | .declared => if b.clearCount ≤ cold then .clear else .declared

/-- The live state after one sweep (R86 to R93). -/
def liveAfter (b : Band) (bins : List Level) (v : BandLive) : BandLive :=
  let c := classifySweep b bins
  let runs := runsAfter c v.hotRun v.coldRun
  let state := stateAfter b runs.1 runs.2 v.state
  let burst := if c = .hot then bump v.burst else 0
  { v with
    state := state
    hotRun := runs.1
    coldRun := runs.2
    burst := burst
    longest := if c = .hot then max v.longest burst else v.longest
    hotCount := if c = .hot then bump v.hotCount else v.hotCount
    declares := if v.state = .clear ∧ state = .declared then bump v.declares else v.declares
    peak := some (peakOf bins) }

/-- The event a band's change of state raises (R90). -/
def bandEvent (band sweep : Nat) (b : Band) (before now : BandLive) : List Event :=
  match before.state, now.state with
  | .clear, .declared => [.declare band sweep (now.peak.getD 0)]
  | .declared, .clear => if b.mode = .both then [.clear band sweep] else []
  | _, _ => []

/-- One band at a hand-off: a disabled band is passed over (R86). -/
def bandAfter (levels : List Level) (x : BandSlot) : BandSlot :=
  if x.entry.enabled then { x with live := liveAfter x.entry (bandLevels x.entry levels) x.live } else x

/-- The band events of a hand-off, in ascending band number (R90). -/
def bandEvents (sweep : Nat) (levels : List Level) : Nat → List BandSlot → List Event
  | _, [] => []
  | i, x :: rest =>
    bandEvent i sweep x.entry x.live (bandAfter levels x).live ++ bandEvents sweep levels (i + 1) rest

/-- The band notice of a hand-off for a running search's band (R91): its peak, and whether the sweep cleared it. -/
def bandNotice (before after' : List BandSlot) (band : Nat) : Option (Int × Bool) :=
  match before[band]?, after'[band]? with
  | some x, some y =>
    if x.entry.enabled then
      some (y.live.peak.getD 0, decide (x.live.state = .declared ∧ y.live.state = .clear))
    else none
  | _, _ => none

/-- The sweep hand-off (R86, R90, R91): every enabled band classified, the band events raised, then the notice to a
running search. -/
def handOff (sweep : Nat) (levels : List Level) (s : State) : State :=
  let before := s.bands.bands
  let after' := before.map (bandAfter levels)
  let t := raiseEvents (bandEvents sweep levels 0 before) { s with bands := { s.bands with bands := after' } }
  match s.search.record.bind (fun r => bandNotice before after' r.band) with
  | some (peak, cleared) => searchNotice peak cleared t
  | none => t

/-- A band is DECLARED. -/
def bandDeclared (s : State) (n : Nat) : Bool := (s.bands.bands[n]?).any (fun x => x.live.state == .declared)

/-- An accepted write of a band entry (R83): the live state is reset. -/
def writeBand (n : Nat) (b : Band) (w : BandWatch) : BandWatch :=
  { w with bands := w.bands.set n { entry := b, live := resetLive } }

/-- One band at an interval transfer (R95). -/
def transferBand (x : BandSlot) : BandSlot :=
  { x with live := { x.live with lastCount := x.live.hotCount, lastLongest := x.live.longest, hotCount := 0, longest := 0 } }

/-- An interval transfer (R95). -/
def intervalTransfer (s : State) : State :=
  { s with bands := { s.bands with bands := s.bands.bands.map transferBand, lastTransfer := some s.clocks.plantTime } }

/-- The interval timer restarted with a settings record, or stopped in MANUAL (R94, R98). -/
def intervalStart (now : Nat) (st : Settings) : Option Nat :=
  match st.mode with
  | .auto => some (now + seconds st.interval)
  | .manual => none

/-- The interval timer's expiry (R94): a transfer is made and the timer restarts with the interval in force. In MANUAL mode
the timer does not run and has no expiry (notes/assumptions/2.md). -/
def bandIntervalExpiry (s : State) : State :=
  match s.bands.intervalDue with
  | none => s
  | some due =>
    let t := intervalTransfer (reach due s)
    { t with bands := { t.bands with intervalDue := intervalStart t.clocks.elapsed t.mgmt.settings } }

/-- BAND_INTERVAL_EXPIRY (R94). -/
def execBandIntervalExpiry (s : State) : Host.Outcome State Fault Refusal := inTurn bandIntervalExpiry s

/-- Band watch after RESET_ENGINES (R98): entries kept, live states reset. -/
def resetEnginesBands (now : Nat) (st : Settings) (w : BandWatch) : BandWatch :=
  { bands := w.bands.map (fun x => { x with live := resetLive }), lastTransfer := none, intervalDue := intervalStart now st }

end Sys2Proof.Machine
end

