-- ==== Sys2Proof/Machine/SweepOps.lean ====
section
/-! DEFINITION. Sweep intake (R67 to R80): the assembly of spectrum segments, level correction, and the hand-off to band watch. -/

namespace Sys2Proof.Machine

/-- The unclamped level of a bin (R76, steps 1 and 2). -/
def unclamped (c : Correction) (raw : Level) : Level := roundAway (raw * (c.gain : Int)) 32768 + c.offset

/-- The clamp (R76, step 3). -/
def clampLevel (u : Level) : Level := max (-1000) (min 1000 u)

/-- A bin is clamped when its unclamped level lies outside −1000..+1000 (R76). -/
def isClamped (u : Level) : Bool := decide (u < -1000) || decide (1000 < u)

/-- The unclamped levels of the bins from `i` up, each by its own group's entry (R75, R76). -/
def unclampedAll (table : List Correction) : Nat → List Level → List Level
  | _, [] => []
  | i, raw :: rest =>
    unclamped (table.getD (i / 32) { gain := 32768, offset := 0 }) raw :: unclampedAll table (i + 1) rest

/-- An assembly in ASSEMBLING is discarded with a reason and counted (R69); in IDLE nothing changes. -/
def discardAssembly (why : DiscardReason) (w : Sweep) : Sweep :=
  match w.assembly with
  | .idle => w
  | .assembling _ _ _ => { w with assembly := .idle, incomplete := bump w.incomplete, lastDiscard := some why }

/-- A sweep completes (R72, R77): corrected with the table as it stands, recorded, counted and handed to band watch. -/
def completeSweep (sweep : Nat) (raw : List Level) (s : State) : State :=
  let u := unclampedAll s.sweep.corrections 0 raw
  let clamps := (u.filter isClamped).length
  handOff sweep (u.map clampLevel)
    { s with sweep := { s.sweep with
        assembly := .idle
        complete := bump s.sweep.complete
        clamped := if 1 ≤ clamps then bump s.sweep.clamped else s.sweep.clamped
        latest := some { sweep := sweep, clampCount := clamps, time := s.clocks.plantTime } } }

/-- A good segment (R70, R71): its index, sweep number and 256 raw levels. -/
def goodSegment (sweep index : Nat) (levels : List Level) (s : State) : State :=
  if index = 0 then
    { s with sweep := { discardAssembly .restarted s.sweep with assembly := .assembling sweep 1 levels } }
  else
    match s.sweep.assembly with
    | .idle => { s with sweep := { s.sweep with orphan := bump s.sweep.orphan } }
    | .assembling s0 expected got =>
      if index ≠ expected then { s with sweep := discardAssembly .outOfOrder s.sweep }
      else if sweep ≠ s0 then { s with sweep := discardAssembly .wrongSweep s.sweep }
      else if index = 3 then completeSweep s0 (got ++ levels) s
      else { s with sweep := { s.sweep with assembly := .assembling s0 (index + 1) (got ++ levels) } }

/-- A malformed segment (R73). -/
def malformedSegment (s : State) : State :=
  { s with sweep := { discardAssembly .malformed s.sweep with malformed := bump s.sweep.malformed } }

/-- A bad-CRC segment (R73). -/
def badCrcSegment (s : State) : State := { s with sweep := discardAssembly .badCrc s.sweep }

/-- The 256 raw levels of a segment frame (R148): level i at bytes 10 + 2i. -/
def segmentLevels (f : Frame) : List Level := (List.range 256).map (fun i => beInt16 (field f (10 + 2 * i) 2))

/-- A SPECTRUM_SEG frame reaches sweep intake (R67). -/
def takeSegment (f : Frame) (s : State) : State :=
  if crcGood f then
    if f.length = 528 ∧ (byteAt f 8).toNat ≤ 3 then
      goodSegment (beNat (field f 6 2)) (byteAt f 8).toNat (segmentLevels f) s
    else malformedSegment s
  else badCrcSegment s

/-- Sweep intake after a reset (R80), with the correction table given. -/
def resetSweep (corrections : List Correction) : Sweep :=
  { assembly := .idle, corrections := corrections, complete := 0, incomplete := 0, orphan := 0, malformed := 0, clamped := 0,
    lastDiscard := none, latest := none }

end Sys2Proof.Machine
end

