-- ==== Sys2Proof/Machine/LinkOps.lean ====
section
/-! DEFINITION. The return link's operations (R146 to R164): lanes, occupancies, the byte time, lock and its loss, and
the arrival of a frame whole. -/

namespace Sys2Proof.Machine

/-! ## Lanes and occupancies (R155, R160) -/

/-- A receive lane of the link. -/
def Link.lane (l : Link) : Lane → RxLane
  | .nodeSide => l.node
  | .hubSide => l.hub

/-- The link with a receive lane changed. -/
def Link.setLane (l : Link) (which : Lane) (x : RxLane) : Link :=
  match which with
  | .nodeSide => { l with node := x }
  | .hubSide => { l with hub := x }

/-- Bytes of the frame in reception that have arrived at a byte time; FILL enters neither store (R152, R155, R160). -/
def arriving (x : RxLane) (now : Nat) : Nat :=
  match x.rx with
  | none => 0
  | some r => if headerKind r.header = kindFill then 0 else min (headerLength r.header) (now - r.start)

/-- Bytes of a pass-through frame still to leave (R155). -/
def hubLeaving (t : HubTx) (now : Nat) : Nat :=
  match t.sending with
  | .through _ => t.endsAt - now
  | .fill _ => 0
  | .response _ => 0
  | .report _ => 0

/-- Bytes of a node-bound frame, or of a taken request sent as FILL, still to leave (R160). -/
def nodeLeaving (t : NodeTx) (now : Nat) : Nat :=
  match t.sending with
  | .frame _ => t.endsAt - now
  | .fills _ _ => t.endsAt - now
  | .fill _ => 0

/-- What the hub-side transmitter sends, byte for byte (R147, R148, R156). -/
def HubSent.bytes : HubSent → Frame
  | .fill address => fillFrame address
  | .response r => r.frame
  | .report r => r.frame
  | .through f => f

/-- What the node-side transmitter sends, byte for byte (R147, R160). -/
def NodeSent.bytes : NodeSent → List Byte
  | .fill address => fillFrame address
  | .fills count address => (List.replicate count (fillFrame address)).flatten
  | .frame f => f

/-- Bytes of whole frames waiting. -/
def waitingBytes (fs : List Frame) : Nat := (fs.map List.length).sum

/-- The pass-through buffer's occupancy (R155). -/
def occupancy (l : Link) : Nat := hubLeaving l.hubTx l.byteTime + waitingBytes l.through + arriving l.node l.byteTime

/-- The node-bound store's occupancy (R160). -/
def storeOccupancy (l : Link) : Nat :=
  nodeLeaving l.nodeTx l.byteTime + waitingBytes (l.store.map (·.frame)) + arriving l.hub l.byteTime

/-- The byte time reaches a moment; it never runs back (notes/assumptions/4.md). -/
def reachByte (p : Nat) (l : Link) : Link := { l with byteTime := max l.byteTime p }

/-- The peak occupancy follows the occupancy (R157). -/
def notePeak (l : Link) : Link := { l with peak := max l.peak (occupancy l) }

/-- The high mark in bytes (R156). -/
def highMark : Nat := 3072

/-- A lane is LOCKED. -/
def RxLane.locked (x : RxLane) : Bool :=
  match x.lock with
  | .locked _ _ => true
  | .hunting _ _ => false

/-! ## The order of the link's events

A count of bytes is a measure of time on every lane (chapter 8), so the events that fall at a byte moment come in the order
of their moments, which the bounds of R157 and R160 rest on (notes/assumptions/18.md). -/

/-- The byte time at which the frame in reception is whole. -/
def wholeAt (x : RxLane) : Nat :=
  match x.rx with
  | none => 0
  | some r => r.start + headerLength r.header

/-- The byte position that a hunting lane tests next (R149): the expected one, or with the run at 0 the next in order. -/
def testedAt (expected : Option Nat) (x : RxLane) : Nat := expected.getD x.cursor

/-- The byte moment of the next event of a receive lane: its frame in reception is whole (R152), or its next header is
tested (R149, R150). A lane without its signal has none (R151). -/
def laneDue (x : RxLane) : Option Nat :=
  match x.lock with
  | .locked _ p => if x.rx.isSome then some (wholeAt x) else some p
  | .hunting _ expected => if x.signal then some (testedAt expected x) else none

/-- No event of the link falls before a byte moment: neither transmitter's frame ends nor either lane's next event comes
before it. Events of one moment may come in either order, but for `arrivesBy`. -/
def inOrder (l : Link) (m : Nat) : Bool :=
  decide (m ≤ l.hubTx.endsAt) && decide (m ≤ l.nodeTx.endsAt) && (laneDue l.node).all (fun d => decide (m ≤ d))
    && (laneDue l.hub).all (fun d => decide (m ≤ d))

/-- The frame in reception is whole by a byte moment: it arrives before a transmitter chooses at that moment (R157, R160;
notes/assumptions/18.md). -/
def arrivesBy (x : RxLane) (m : Nat) : Bool := x.rx.isSome && decide (wholeAt x ≤ m)

/-- The hub-side transmitter is between frames: its frame has ended, and nothing on the link comes before its choice (R156). -/
def hubChooses (l : Link) : Bool := inOrder l l.hubTx.endsAt && !arrivesBy l.node l.hubTx.endsAt

/-- The node-side transmitter is between frames in the same way (R160). -/
def nodeChooses (l : Link) : Bool := inOrder l l.nodeTx.endsAt && !arrivesBy l.hub l.nodeTx.endsAt

/-! ## Loss of lock (R150, R151, R159) -/

/-- What the loss of lock on a lane tells other blocks (R74, R137, R159): on the node side, sweep intake and the search. -/
def tellLockLost (which : Lane) (s : State) : State :=
  match which with
  | .nodeSide => fixCause .linkLost { s with sweep := discardAssembly .lockLost s.sweep }
  | .hubSide => s

/-- A LOCKED lane becomes HUNTING, its hunt to begin at a byte position (R150, R151): a frame in reception is cut short. -/
def loseLock (which : Lane) (cursor : Nat) (signal : Bool) (s : State) : State :=
  let x := s.link.lane which
  let y := { x with lock := .hunting 0 none, cursor := cursor, signal := signal, rx := none, lockLosses := bump x.lockLosses }
  tellLockLost which { s with link := s.link.setLane which y }

/-! ## Arrival of a frame whole (R152) -/

/-- The frame is the one in reception on a LOCKED lane, all its bytes there (R152). -/
def isReceived (x : RxLane) (f : Frame) : Bool :=
  x.locked && x.rx.any (fun r => f.take 6 == r.header && decide (f.length = headerLength r.header))

/-- A frame arrives whole on a lane: it is the one in reception, and nothing on the link comes before its last byte. -/
def arrives (which : Lane) (f : Frame) (l : Link) : Bool := isReceived (l.lane which) f && inOrder l (wholeAt (l.lane which))

/-- The lane after a frame has arrived whole (R152, R153): counted, its CRC computed unless it is FILL. -/
def countArrival (f : Frame) (x : RxLane) : RxLane :=
  let bad := headerKind f != kindFill && !crcGood f
  { x with
    rx := none
    rxFrames := bump x.rxFrames
    rxCrcErrors := if bad then bump x.rxCrcErrors else x.rxCrcErrors
    crc := if bad then { x.crc with interval := bump x.crc.interval } else x.crc }

/-- A frame that has arrived whole stands in its lane's store, unless it is FILL (R152, R155, R160). -/
def storeFrame (which : Lane) (f : Frame) (taken : Bool) (l : Link) : Link :=
  if headerKind f = kindFill then l
  else
    match which with
    | .nodeSide => { l with through := l.through ++ [f] }
    | .hubSide => { l with store := l.store ++ [{ frame := f, taken := taken }] }

/-- The link's part of an arrival (R152): the byte time reaches the frame's end, the lane counts it, it is stored. -/
def arrive (which : Lane) (f : Frame) (taken : Bool) (s : State) : State :=
  let x := s.link.lane which
  let l := reachByte (wholeAt x) s.link
  { s with link := notePeak (storeFrame which f taken (l.setLane which (countArrival f x))) }

/-- A request addressed to the part (R161): kind MGMT_REQ, CRC good, the part's own node address or the broadcast. -/
def addressedToPart (f : Frame) (s : State) : Bool :=
  headerKind f == kindMgmtReq && crcGood f
    && (headerAddress f == s.mgmt.nodeAddress || headerAddress f == broadcast)

/-- The head of the request a frame carries (R148, R165). -/
def reqHeadOf (f : Frame) : ReqHead :=
  { tag := BitVec.ofNat 16 (beNat (field f 6 2)), kind := byteAt f 8, address := headerAddress f,
    lenCode := (byteAt f 2).toNat, bodyLen := beNat (field f 10 2) }

/-- Management is handed a request (R167): appended, or discarded and counted when the queue holds four. -/
def handRequest (r : Request) (m : Mgmt) : Mgmt :=
  if m.requests.length < 4 then { m with requests := m.requests ++ [r] } else { m with dropped := bump m.dropped }

end Sys2Proof.Machine
end

