-- ==== Sys2Proof/Machine/Flags.lean ====
section
/-! DEFINITION. What is computed from the state and held nowhere: the alarm lines' conditions and levels (R188, R189),
and the views that STATUS_READ, the table reads and the reports give (R63, R97, R121, R144, R163, R176, R187, R190). -/

namespace Sys2Proof.Machine

/-! ## Alarm lines -/

/-- The condition a source names (R189). -/
def alarmCondition (s : State) : AlarmSource → Bool
  | .fixedLow => false
  | .fixedHigh => true
  | .anyBandDeclared => s.bands.bands.any (fun x => x.live.state == .declared)
  | .bandDeclared n => bandDeclared s n
  | .suspectPresent => s.tally.records.any (fun p => p.2.state == .suspect)
  | .searchActive => s.search.record.isSome
  | .legStepped => !allPass s.tlm.entries
  | .linkDegraded => s.link.node.crc.degraded || s.link.hub.crc.degraded
  | .linkDown => !s.link.node.locked || !s.link.hub.locked

/-- The level driven on a line, true for high (R188): the fixed sources whatever the polarity. -/
def lineHigh (s : State) (e : AlarmEntry) : Bool :=
  match e.source with
  | .fixedLow => false
  | .fixedHigh => true
  | src =>
    match e.polarity with
    | .activeHigh => alarmCondition s src
    | .activeLow => !alarmCondition s src

/-- The alarm lines as the reads give them (R188, R190). -/
def alarmViews (s : State) : List AlarmView := s.reports.alarms.map (fun e => { entry := e, high := lineHigh s e })

/-! ## Report slots -/

/-- A slot stands in the report queue (R182). -/
def slotQueued (s : State) (i : Nat) : Bool := s.reports.queue.any (fun q => q.slot == i)

/-- Whole seconds to a moment of the elapsed-time base, rounded up, if there is one. -/
def secondsTo (s : State) (due : Option Nat) : Option Nat := due.map (secondsUntil s.clocks.elapsed)

/-- The report slots from `i` up as the reads give them (R181, R190). -/
def slotViewsFrom (s : State) : Nat → List ReportSlot → List SlotView
  | _, [] => []
  | i, x :: rest =>
    { entry := x.entry, queued := slotQueued s i, seconds := secondsTo s x.due } :: slotViewsFrom s (i + 1) rest

/-- The eight slots as TABLE_READ gives them (R181). -/
def slotViews (s : State) : List SlotView := slotViewsFrom s 0 s.reports.slots

/-- The eight slots as the group REPORTS gives them (R190). -/
def slotStatuses (s : State) : List SlotStatus :=
  (slotViews s).map (fun v => { enabled := v.entry.enabled, repeats := v.entry.repeats, kind := v.entry.kind,
                                trigger := v.entry.trigger, queued := v.queued, seconds := v.seconds })

/-! ## Views of the blocks -/

/-- The tracking entries in ascending leg address, as LEG_STATES gives them (R121). -/
def legViews (s : State) : List LegView :=
  s.tlm.entries.map (fun p =>
    { address := p.1, state := p.2.state, owner := p.2.owner, seconds := secondsTo s p.2.deadline, reachable := p.2.reachable,
      timeouts := p.2.timeouts, failures := p.2.failures, lastReply := p.2.lastReply, retained := p.2.retained })

/-- The telemetry controller's items (R121). -/
def legsView (s : State) : LegsView :=
  { entries := s.tlm.entries.length
    busy := (s.tlm.entries.find? (fun p => p.2.busy)).map (fun p =>
      { address := p.1, state := p.2.state, owner := p.2.owner, seconds := secondsTo s p.2.deadline })
    unreachable := (s.tlm.entries.filter (fun p => !p.2.reachable)).length
    directQueue := s.tlm.directQueue.length
    transaction := s.tlm.transaction.map (fun t => { address := t.address, command := t.command, requester := t.requester })
    sent := s.tlm.sent
    timeout := s.tlm.timeout
    ignored := s.tlm.ignored
    watchdog := s.mgmt.settings.watchdog }

/-- The running search's items (R144): the end cause is shown in ENDING. -/
def runningView (s : State) (r : SearchRecord) : RunningView :=
  { state := r.state, number := r.number, band := r.band, level := r.level, k := r.k, sk := r.sk, hold := r.hold, head := r.head,
    leg := (currentLeg r).map (fun l => (l.element, l.address)), collected := r.collected, baseline := r.baseline,
    seconds := secondsTo s r.measureDeadline, cause := if r.state = .ending then r.cause else none, path := r.path,
    measured := r.measured }

/-- The search's items (R144). -/
def searchView (s : State) : SearchView :=
  { running := s.search.record.map (runningView s), results := s.search.log.length
    newest := s.search.log.getLast?.map (·.number) }

/-- One receive lane's items (R163). -/
def laneView (x : RxLane) : LaneView :=
  { locked := x.locked, degraded := x.crc.degraded, interval := x.crc.interval, lastInterval := x.crc.lastInterval,
    rxFrames := x.rxFrames, rxCrcErrors := x.rxCrcErrors, headerErrors := x.headerErrors, lockLosses := x.lockLosses }

/-- The return link's items with the CRC threshold (R163). -/
def linkView (s : State) : LinkView :=
  { node := laneView s.link.node, hub := laneView s.link.hub, requestsTaken := s.link.requestsTaken,
    responsesSent := s.link.responsesSent, reportsSent := s.link.reportsSent, occupancy := occupancy s.link,
    peak := s.link.peak, store := storeOccupancy s.link, crcThreshold := s.mgmt.settings.crcThreshold }

/-- The numbers of the DECLARED bands from `i` up (R97). -/
def declaredFrom : Nat → List BandSlot → List Nat
  | _, [] => []
  | i, x :: rest => if x.live.state = .declared then i :: declaredFrom (i + 1) rest else declaredFrom (i + 1) rest

/-- The number of STALE attachment entries (R22). -/
def staleCount (s : State) : Nat := (s.map.attachments.filter (fun p => p.2.validity == .stale)).length

/-- The common part of STATUS_READ (R176). -/
def statusCommon (s : State) : StatusCommon :=
  { partCode := 0x0640, revision := 1, nodeAddress := s.mgmt.nodeAddress, addressSource := s.mgmt.addressSource,
    strap := s.mgmt.strap, plantTime := s.clocks.plantTime, imageStatus := s.image.status, loading := s.image.load.isSome,
    saving := s.image.saving.isSome, mapState := s.map.state, searchState := s.search.record.map (·.state),
    requests := s.mgmt.requests.length, responses := s.mgmt.responses.length, dropped := s.mgmt.dropped }

/-- The part of a group of STATUS_READ (R176). -/
def groupView (s : State) : StatusGroup → GroupView
  | .map => .map s.map.state s.map.error s.map.elements.length s.map.attachments.length (staleCount s)
  | .echo => .echo s.echo.counters s.echo.queue.length s.echo.latest
  | .tally => .tally (tallySummary s)
  | .sweep =>
    .sweep (match s.sweep.assembly with
            | .idle => none
            | .assembling n expected _ => some (n, expected))
      s.sweep.lastDiscard s.sweep.latest s.sweep.complete s.sweep.incomplete s.sweep.orphan s.sweep.malformed s.sweep.clamped
  | .bands =>
    let declared := declaredFrom 0 s.bands.bands
    .bands declared.length declared s.mgmt.settings.mode s.mgmt.settings.interval s.bands.lastTransfer
  | .legs => .legs (legsView s)
  | .search => .search (searchView s)
  | .link => .link (linkView s)
  | .reports => .reports (slotStatuses s) s.reports.queue (alarmViews s)

/-! ## Report contents (R187) -/

/-- One band's line: its live state without the runs (R187). -/
def bandLine (i : Nat) (v : BandLive) : BandLine :=
  { band := i, state := v.state, peak := v.peak, burst := v.burst, longest := v.longest, hotCount := v.hotCount,
    lastCount := v.lastCount, lastLongest := v.lastLongest, declares := v.declares }

/-- The enabled bands' lines from band `i` up (R187). -/
def bandLinesFrom : Nat → List BandSlot → List BandLine
  | _, [] => []
  | i, x :: rest =>
    if x.entry.enabled then bandLine i x.live :: bandLinesFrom (i + 1) rest else bandLinesFrom (i + 1) rest

/-- The body of a report kind after the report header (R187). -/
def reportContent (s : State) : ReportKind → ReportContent
  | .bandSummary =>
    let lines := bandLinesFrom 0 s.bands.bands
    .bandSummary s.mgmt.settings.mode s.mgmt.settings.interval s.bands.lastTransfer lines.length lines
  | .tallyTop => .tallyTop (tallySummary s) ((ranked s.tally.records).take 8)
  | .searchResult => .searchResult (s.search.record.map (·.state)) s.search.log.length s.search.log.getLast?
  | .linkCounters => .linkCounters (linkView s) s.mgmt.dropped
  | .legStates => .legStates s.tlm.entries.length ((legViews s).take 32) (s.tlm.entries.length - 32)

/-- A report composed for a queued slot (R186, R187). -/
def composeReport (s : State) (q : QueuedSlot) (kind : ReportKind) : Report :=
  { address := s.mgmt.nodeAddress, slot := q.slot, kind := kind,
    body := { time := s.clocks.plantTime, cause := q.cause, count := q.count, content := reportContent s kind } }

end Sys2Proof.Machine
end

