-- ==== Sys2Proof/Machine/Queries.lean ====
section
/-! DEFINITION. The requests that read (R15, R22, R24, R63, R78, R84, R143, R174 to R176, R181, R188) and the requests
that name nothing known (R170). A read changes nothing but the two request queues. -/

namespace Sys2Proof.Machine

/-! ## Shared operations -/

/-- A request that carries no body: a body length other than 0 is refused (R170). -/
def noBody (r : Request) (own : State → State) (s : State) : State :=
  if r.head.bodyLen ≠ 0 then refuse r .badRequest s else own s

/-- A request whose body must hold exactly its fields (R170). -/
def withBody {α : Type} (r : Request) (b : Fit α) (own : α → State → State) (s : State) : State :=
  match b with
  | none => refuse r .badRequest s
  | some v => own v s

/-- A read of a table that carries no index: its body is the selector alone (R175). -/
def wholeRead (r : Request) (fits : Bool) (body : State → Body) (s : State) : State :=
  if fits then answer r .ok (body s) s else refuse r .badRequest s

/-- The records of a table from a number upward, at most `count`, in ascending number. -/
def page {α : Type} (t : Table α) (start count : Nat) : Table α := (t.filter (fun p => decide (start ≤ p.1))).take count

/-- The continuation number of a page: the number after the last record, if the page is full and that is at most `top`. -/
def continuation {α : Type} (records : Table α) (count top : Nat) : Option Nat :=
  if records.length = count then
    match records.getLast? with
    | some p => if p.1 + 1 ≤ top then some (p.1 + 1) else none
    | none => none
  else none

/-! ## Status and unknown requests -/

/-- STATUS_READ's own rule (R176). -/
def statusReadOwn (r : Request) (sel : StatusSelector) (s : State) : State :=
  match sel with
  | .common => answer r .ok (.status (statusCommon s) none) s
  | .group g => answer r .ok (.status (statusCommon s) (some (groupView s g))) s
  | .unknown => refuse r .badValue s
  | .misfit => refuse r .badRequest s

/-- STATUS_READ (R176): accepted in every state, during an image load and as a broadcast included. -/
def execStatusRead (h : ReqHead) (sel : StatusSelector) (s : State) : Host.Outcome State Fault Refusal :=
  runRequest ⟨h, .statusRead sel⟩ (statusReadOwn ⟨h, .statusRead sel⟩ sel) s

/-- The refusal of a request that names nothing known: BAD_VALUE for a scope (R64), BAD_REQUEST otherwise (R143, R170,
R175; for the forms of R22 and R63 notes/assumptions/9.md). -/
def unnamedCode : Unnamed → Completion
  | .tallyScope => .badValue
  | .kindCode => .badRequest
  | .readSelector => .badRequest
  | .writeSelector => .badRequest
  | .attachForm => .badRequest
  | .tallyForm => .badRequest
  | .resultForm => .badRequest

/-- UNKNOWN_REQUEST (R170): executed and refused. -/
def execUnknownRequest (h : ReqHead) (what : Unnamed) (s : State) : Host.Outcome State Fault Refusal :=
  runRequest ⟨h, .unknownRequest what⟩ (refuse ⟨h, .unknownRequest what⟩ (unnamedCode what)) s

/-! ## Tables -/

/-- TABLE_READ of the channel table (R24): all 8 entries. -/
def execTableReadChannel (h : ReqHead) (fits : Bool) (s : State) : Host.Outcome State Fault Refusal :=
  runRequest ⟨h, .tableReadChannel fits⟩
    (wholeRead ⟨h, .tableReadChannel fits⟩ fits (fun t => .channels t.echo.channels)) s

/-- TABLE_READ of the band table's own rule (R84). -/
def tableReadBandOwn (r : Request) (q : StartCount) (s : State) : State :=
  if within 0 31 q.start && within 1 8 q.count then
    answer r .ok (.bands ((s.bands.bands.drop q.start).take q.count)) s
  else refuse r .badIndex s

/-- TABLE_READ of the band table (R84). -/
def execTableReadBand (h : ReqHead) (b : Fit StartCount) (s : State) : Host.Outcome State Fault Refusal :=
  runRequest ⟨h, .tableReadBand b⟩ (withBody ⟨h, .tableReadBand b⟩ b (tableReadBandOwn ⟨h, .tableReadBand b⟩)) s

/-- TABLE_READ of the correction table (R78): all 32 entries. -/
def execTableReadCorrection (h : ReqHead) (fits : Bool) (s : State) : Host.Outcome State Fault Refusal :=
  runRequest ⟨h, .tableReadCorrection fits⟩
    (wholeRead ⟨h, .tableReadCorrection fits⟩ fits (fun t => .corrections t.sweep.corrections)) s

/-- TABLE_READ of the settings table (R174): all nine fields. -/
def execTableReadSettings (h : ReqHead) (fits : Bool) (s : State) : Host.Outcome State Fault Refusal :=
  runRequest ⟨h, .tableReadSettings fits⟩
    (wholeRead ⟨h, .tableReadSettings fits⟩ fits (fun t => .settings t.mgmt.settings)) s

/-- TABLE_READ of the report slot table (R181): all 8 entries, each with whether it is queued and the time to its expiry. -/
def execTableReadReportSlot (h : ReqHead) (fits : Bool) (s : State) : Host.Outcome State Fault Refusal :=
  runRequest ⟨h, .tableReadReportSlot fits⟩
    (wholeRead ⟨h, .tableReadReportSlot fits⟩ fits (fun t => .slots (slotViews t))) s

/-- TABLE_READ of the alarm line table (R188): all 4 entries with the levels they drive. -/
def execTableReadAlarmLine (h : ReqHead) (fits : Bool) (s : State) : Host.Outcome State Fault Refusal :=
  runRequest ⟨h, .tableReadAlarmLine fits⟩
    (wholeRead ⟨h, .tableReadAlarmLine fits⟩ fits (fun t => .alarms (alarmViews t))) s

/-! ## Map and attachments -/

/-- MAP_READ's own rule (R15). -/
def mapReadOwn (r : Request) (q : StartCount) (s : State) : State :=
  if within 0 511 q.start && within 1 32 q.count then
    let records := page s.map.elements q.start q.count
    answer r .ok
      (.mapRecords s.map.state s.map.error s.map.elements.length records (continuation records q.count 511)) s
  else refuse r .badValue s

/-- MAP_READ (R15): accepted in every map state. -/
def execMapRead (h : ReqHead) (b : Fit StartCount) (s : State) : Host.Outcome State Fault Refusal :=
  runRequest ⟨h, .mapRead b⟩ (withBody ⟨h, .mapRead b⟩ b (mapReadOwn ⟨h, .mapRead b⟩)) s

/-- ATTACH_READ by station id's own rule (R22). -/
def attachReadByStationOwn (r : Request) (station : Word32) (s : State) : State :=
  match indexOfStation s.map.attachments station with
  | some (i, a) => answer r .ok (.attachEntry i a.element a.port a.drop a.validity) s
  | none => refuse r .notFound s

/-- ATTACH_READ by station id (R22). -/
def execAttachReadByStation (h : ReqHead) (b : Fit Word32) (s : State) : Host.Outcome State Fault Refusal :=
  runRequest ⟨h, .attachReadByStation b⟩
    (withBody ⟨h, .attachReadByStation b⟩ b (attachReadByStationOwn ⟨h, .attachReadByStation b⟩)) s

/-- ATTACH_READ by index range's own rule (R22). -/
def attachReadByRangeOwn (r : Request) (q : StartCount) (s : State) : State :=
  if within 0 1023 q.start && within 1 32 q.count then
    let entries := page s.map.attachments q.start q.count
    answer r .ok
      (.attachEntries s.map.attachments.length (staleCount s) entries (continuation entries q.count 1023)) s
  else refuse r .badValue s

/-- ATTACH_READ by index range (R22). -/
def execAttachReadByRange (h : ReqHead) (b : Fit StartCount) (s : State) : Host.Outcome State Fault Refusal :=
  runRequest ⟨h, .attachReadByRange b⟩
    (withBody ⟨h, .attachReadByRange b⟩ b (attachReadByRangeOwn ⟨h, .attachReadByRange b⟩)) s

/-! ## Tally -/

/-- TALLY_READ by slot's own rule (R63). -/
def tallyReadBySlotOwn (r : Request) (q : StartCount) (s : State) : State :=
  if within 0 255 q.start && within 1 8 q.count then
    let records := page s.tally.records q.start q.count
    answer r .ok (.tallySlots (tallySummary s) records (continuation records q.count 255)) s
  else refuse r .badValue s

/-- TALLY_READ by slot (R63). -/
def execTallyReadBySlot (h : ReqHead) (b : Fit StartCount) (s : State) : Host.Outcome State Fault Refusal :=
  runRequest ⟨h, .tallyReadBySlot b⟩ (withBody ⟨h, .tallyReadBySlot b⟩ b (tallyReadBySlotOwn ⟨h, .tallyReadBySlot b⟩)) s

/-- TALLY_READ ranked's own rule (R63): ranks count from 1. -/
def tallyReadRankedOwn (r : Request) (q : StartCount) (s : State) : State :=
  if within 1 256 q.start && within 1 8 q.count then
    answer r .ok (.tallyRanked (tallySummary s) (((ranked s.tally.records).drop (q.start - 1)).take q.count)) s
  else refuse r .badValue s

/-- TALLY_READ ranked (R63). -/
def execTallyReadRanked (h : ReqHead) (b : Fit StartCount) (s : State) : Host.Outcome State Fault Refusal :=
  runRequest ⟨h, .tallyReadRanked b⟩ (withBody ⟨h, .tallyReadRanked b⟩ b (tallyReadRankedOwn ⟨h, .tallyReadRanked b⟩)) s

/-- TALLY_READ by key's own rule (R63). A key out of range is refused with BAD_VALUE although no record holds it either
(DESIGN CHOICE, notes/assumptions/30.md). -/
def tallyReadByKeyOwn (r : Request) (q : Nat × Option Place) (s : State) : State :=
  match q.2 with
  | none => refuse r .badValue s
  | some p =>
    if within 0 511 q.1 then
      match findKey s.tally.records (q.1, p) with
      | some (slot, x) => answer r .ok (.tallyRecord (tallySummary s) slot x) s
      | none => refuse r .notFound s
    else refuse r .badValue s

/-- TALLY_READ by key (R63). -/
def execTallyReadByKey (h : ReqHead) (b : Fit (Nat × Option Place)) (s : State) : Host.Outcome State Fault Refusal :=
  runRequest ⟨h, .tallyReadByKey b⟩ (withBody ⟨h, .tallyReadByKey b⟩ b (tallyReadByKeyOwn ⟨h, .tallyReadByKey b⟩)) s

/-! ## Results -/

/-- The OK response of a RESULT_READ that found a result (R143). -/
def resultBody (s : State) (x : SearchResult) : Body :=
  .result s.search.log.length ((s.search.log.head?.map (·.number)).getD 0) ((s.search.log.getLast?.map (·.number)).getD 0) x

/-- A RESULT_READ answered with what it found (R143). -/
def answerResult (r : Request) (found : Option SearchResult) (s : State) : State :=
  match found with
  | some x => answer r .ok (resultBody s x) s
  | none => refuse r .notFound s

/-- RESULT_READ LATEST's own rule (R143). -/
def resultReadLatestOwn (r : Request) (fits : Bool) (s : State) : State :=
  if fits then answerResult r s.search.log.getLast? s else refuse r .badRequest s

/-- RESULT_READ LATEST (R143). -/
def execResultReadLatest (h : ReqHead) (fits : Bool) (s : State) : Host.Outcome State Fault Refusal :=
  runRequest ⟨h, .resultReadLatest fits⟩ (resultReadLatestOwn ⟨h, .resultReadLatest fits⟩ fits) s

/-- RESULT_READ BY_NUMBER's own rule (R143). R143 refuses the number 0; one above 65535, which no result carries (R142), is
refused with it (DESIGN CHOICE, notes/assumptions/25.md). Such a number is refused with BAD_VALUE also where no result has it, on
an empty log too (DESIGN CHOICE, notes/assumptions/30.md). -/
def resultReadByNumberOwn (r : Request) (n : Nat) (s : State) : State :=
  if within 1 65535 n then answerResult r (s.search.log.find? (fun x => x.number == n)) s else refuse r .badValue s

/-- RESULT_READ BY_NUMBER (R143). -/
def execResultReadByNumber (h : ReqHead) (b : Fit Nat) (s : State) : Host.Outcome State Fault Refusal :=
  runRequest ⟨h, .resultReadByNumber b⟩
    (withBody ⟨h, .resultReadByNumber b⟩ b (resultReadByNumberOwn ⟨h, .resultReadByNumber b⟩)) s

end Sys2Proof.Machine
end

