-- ==== Sys2Proof/Machine/TableWrites.lean ====
section
/-! DEFINITION. The six TABLE_WRITE rows (R24, R78, R82, R174, R181, R188) and what a changed settings field does. -/

namespace Sys2Proof.Machine

/-! ## Settings -/

/-- The interval timer after a change of settings: started, restarted or stopped where mode or interval changed (R94). -/
def intervalAfter (now : Nat) (old new : Settings) (due : Option Nat) : Option Nat :=
  if new.mode = old.mode ∧ (new.mode = .manual ∨ new.interval = old.interval) then due else intervalStart now new

/-- All nine fields replaced together, each changed field taking effect: the aging timer (R59), the interval timer
(R94), the records' states (R57). -/
def applySettings (new : Settings) (s : State) : State :=
  let old := s.mgmt.settings
  let t := { s with
    mgmt := { s.mgmt with settings := new }
    tally := { s.tally with agingDue := if new.aging = old.aging then s.tally.agingDue else after s new.aging }
    bands := { s.bands with intervalDue := intervalAfter s.clocks.elapsed old new s.bands.intervalDue } }
  if new.promote = old.promote then t else evaluateAll t

/-- TABLE_WRITE to the settings table's own rule (R174): the first field out of its range is named. -/
def tableWriteSettingsOwn (r : Request) (w : RawSettings) (s : State) : State :=
  match settingsFault w with
  | some f => answer r .badValue (.settingsField f) s
  | none => answer r .ok .empty (applySettings (settingsOf w) s)

/-- TABLE_WRITE to the settings table (R174). -/
def execTableWriteSettings (h : ReqHead) (b : Fit RawSettings) (s : State) : Host.Outcome State Fault Refusal :=
  runRequest ⟨h, .tableWriteSettings b⟩
    (withBody ⟨h, .tableWriteSettings b⟩ b (tableWriteSettingsOwn ⟨h, .tableWriteSettings b⟩)) s

/-! ## Channel -/

/-- A channel entry replaced whole. -/
def setChannel (n : Nat) (c : Channel) (s : State) : State :=
  { s with echo := { s.echo with channels := s.echo.channels.set n c } }

/-- TABLE_WRITE to the channel table's own rule (R24). R24 gives its two refusals no order; where both apply the answer is
BAD_INDEX. DESIGN CHOICE, notes/assumptions/24.md. -/
def tableWriteChannelOwn (r : Request) (w : RawChannel) (s : State) : State :=
  if within 0 7 w.channel then
    match channelOf w with
    | some c => answer r .ok .empty (setChannel w.channel c s)
    | none => refuse r .badValue s
  else refuse r .badIndex s

/-- TABLE_WRITE to the channel table (R24). -/
def execTableWriteChannel (h : ReqHead) (b : Fit RawChannel) (s : State) : Host.Outcome State Fault Refusal :=
  runRequest ⟨h, .tableWriteChannel b⟩
    (withBody ⟨h, .tableWriteChannel b⟩ b (tableWriteChannelOwn ⟨h, .tableWriteChannel b⟩)) s

/-! ## Band -/

/-- A band entry written as an accepted write (R83). -/
def setBand (n : Nat) (b : Band) (s : State) : State := { s with bands := writeBand n b s.bands }

/-- A running search uses a band. -/
def searchUses (s : State) (band : Nat) : Bool := s.search.record.any (fun r => r.band == band)

/-- TABLE_WRITE to the band table's own rule (R82, conditions 2 to 5). -/
def tableWriteBandOwn (r : Request) (w : RawBand) (s : State) : State :=
  if within 0 31 w.band then
    match bandOf w with
    | some b => if searchUses s w.band then refuse r .searchActive s else answer r .ok .empty (setBand w.band b s)
    | none => refuse r .badValue s
  else refuse r .badIndex s

/-- TABLE_WRITE to the band table (R82). -/
def execTableWriteBand (h : ReqHead) (b : Fit RawBand) (s : State) : Host.Outcome State Fault Refusal :=
  runRequest ⟨h, .tableWriteBand b⟩ (withBody ⟨h, .tableWriteBand b⟩ b (tableWriteBandOwn ⟨h, .tableWriteBand b⟩)) s

/-! ## Correction -/

/-- A run of a list replaced from a position. -/
def replaceRun {α : Type} (l : List α) (start : Nat) (run : List α) : List α :=
  l.take start ++ run ++ l.drop (start + run.length)

/-- A run of correction entries replaced together. -/
def setCorrections (start : Nat) (run : List Correction) (s : State) : State :=
  { s with sweep := { s.sweep with corrections := replaceRun s.sweep.corrections start run } }

/-- TABLE_WRITE to the correction table's own rule (R78, conditions 1 to 5). -/
def tableWriteCorrectionOwn (r : Request) (w : StartCount × List Correction) (s : State) : State :=
  if w.2.length ≠ w.1.count then refuse r .badRequest s
  else if !(within 0 31 w.1.start && within 1 32 w.1.count && decide (w.1.start + w.1.count ≤ 32)) then refuse r .badIndex s
  else if !w.2.all correctionOk then refuse r .badValue s
  else if s.search.record.isSome then refuse r .searchActive s
  else answer r .ok .empty (setCorrections w.1.start w.2 s)

/-- TABLE_WRITE to the correction table (R78). -/
def execTableWriteCorrection (h : ReqHead) (b : Fit (StartCount × List Correction)) (s : State) :
    Host.Outcome State Fault Refusal :=
  runRequest ⟨h, .tableWriteCorrection b⟩
    (withBody ⟨h, .tableWriteCorrection b⟩ b (tableWriteCorrectionOwn ⟨h, .tableWriteCorrection b⟩)) s

/-! ## Report slot, alarm line -/

/-- A report slot written as an accepted write (R181). -/
def setSlot (n : Nat) (e : SlotEntry) (s : State) : State :=
  { s with reports := writeSlot s.clocks.elapsed n e s.reports }

/-- TABLE_WRITE to the report slot table's own rule (R181). -/
def tableWriteReportSlotOwn (r : Request) (w : RawSlot) (s : State) : State :=
  if slotShapeOk w then
    if within 0 7 w.slot then
      match slotOf w with
      | some e => answer r .ok .empty (setSlot w.slot e s)
      | none => refuse r .badValue s
    else refuse r .badIndex s
  else refuse r .badRequest s

/-- TABLE_WRITE to the report slot table (R181). -/
def execTableWriteReportSlot (h : ReqHead) (b : Fit RawSlot) (s : State) : Host.Outcome State Fault Refusal :=
  runRequest ⟨h, .tableWriteReportSlot b⟩
    (withBody ⟨h, .tableWriteReportSlot b⟩ b (tableWriteReportSlotOwn ⟨h, .tableWriteReportSlot b⟩)) s

/-- An alarm line entry replaced; the line takes its level at once (R188). -/
def setAlarm (n : Nat) (e : AlarmEntry) (s : State) : State :=
  { s with reports := { s.reports with alarms := s.reports.alarms.set n e } }

/-- TABLE_WRITE to the alarm line table's own rule (R188). R188 gives its refusals of the line number and of the values no order;
where both apply the answer is BAD_INDEX. DESIGN CHOICE, notes/assumptions/24.md. -/
def tableWriteAlarmLineOwn (r : Request) (w : RawAlarm) (s : State) : State :=
  if within 0 3 w.line then
    match alarmOf w with
    | some e => answer r .ok .empty (setAlarm w.line e s)
    | none => refuse r .badValue s
  else refuse r .badIndex s

/-- TABLE_WRITE to the alarm line table (R188). -/
def execTableWriteAlarmLine (h : ReqHead) (b : Fit RawAlarm) (s : State) : Host.Outcome State Fault Refusal :=
  runRequest ⟨h, .tableWriteAlarmLine b⟩
    (withBody ⟨h, .tableWriteAlarmLine b⟩ b (tableWriteAlarmLineOwn ⟨h, .tableWriteAlarmLine b⟩)) s

end Sys2Proof.Machine
end

