-- ==== Sys2Proof/Machine/EngineRequests.lean ====
section
/-! DEFINITION. The requests to the engines: TALLY_CLEAR (R64), SEARCH_START and SEARCH_ABORT (R124, R139), the direct
commands (R116, R117) and COUNTER_SNAPSHOT (R96). -/

namespace Sys2Proof.Machine

/-! ## Tally -/

/-- The tally with every record removed and both counts 0 (R64). -/
def clearTally (s : State) : State :=
  { s with tally := { s.tally with records := [], overflow := 0, replacement := 0 } }

/-- A request with a scope alone in its body takes effect and is answered OK (R64). -/
def clearIn (r : Request) (fits : Bool) (effect : State → State) (s : State) : State :=
  if fits then answer r .ok .empty (effect s) else refuse r .badRequest s

/-- TALLY_CLEAR with scope ALL (R64). -/
def execTallyClearAll (h : ReqHead) (fits : Bool) (s : State) : Host.Outcome State Fault Refusal :=
  runRequest ⟨h, .tallyClearAll fits⟩ (clearIn ⟨h, .tallyClearAll fits⟩ fits clearTally) s

/-- The tally with every coincident flag cleared (R64). -/
def clearFlags (s : State) : State :=
  { s with tally := { s.tally with records := tableMap s.tally.records (fun r => { r with coincident := false }) } }

/-- TALLY_CLEAR with scope FLAGS (R64). -/
def execTallyClearFlags (h : ReqHead) (fits : Bool) (s : State) : Host.Outcome State Fault Refusal :=
  runRequest ⟨h, .tallyClearFlags fits⟩ (clearIn ⟨h, .tallyClearFlags fits⟩ fits clearFlags) s

/-! ## Search -/

/-- The conditions of R124 after the body's, in their order; `none` when the search may start. -/
def searchRefusal (w : RawSearch) (s : State) : Option Completion :=
  if !within 0 31 w.band then some .badIndex
  else if !(within 1 3 w.level && within 1 16 w.k && within 0 8 w.sk && within 1 60 w.hold) then some .badValue
  else if s.map.state ≠ .ready then some .mapState
  else if s.search.record.isSome then some .searchActive
  else if !bandDeclared s w.band then some .noBand
  else if !allPass s.tlm.entries then some .legBusy
  else if childLegs s.map.elements 0 = [] then some .noLegs
  else if stepOf w.level - (s.mgmt.settings.mFull : Int) ≤ (s.mgmt.settings.mLow : Int) then some .badValue
  else none

/-- The search record an accepted SEARCH_START fills (R124). The settle remaining has no value of the manual's until the first
ACK_STEP sets it (R127): 0 is the model's (DESIGN CHOICE, notes/assumptions/32.md). The peak sum and the peaks collected become
0 by R125, in the same event. -/
def newSearch (w : RawSearch) (s : State) : SearchRecord :=
  { state := .baseline, band := w.band, level := w.level, step := stepOf w.level, k := w.k, sk := w.sk, hold := w.hold,
    mFull := s.mgmt.settings.mFull, mLow := s.mgmt.settings.mLow, number := s.search.nextNumber,
    startTime := s.clocks.plantTime, head := 0, legs := levelList s.map.elements 0, current := 0, peakSum := 0,
    collected := 0, baseline := none, settle := 0, measureDeadline := none, path := [], secondary := [], unknowns := [],
    measured := 0, cause := none }

/-- The result number after a number: from 65535 to 1 (R142). -/
def numberAfter (n : Nat) : Nat := if 65535 ≤ n then 1 else n + 1

/-- A search starts (R124): its record is filled, its number taken, and it takes up its first leg. -/
def startSearch (w : RawSearch) (s : State) : State :=
  settle (takeUp s.map.elements s.tlm.entries searchFuel (newSearch w s))
    { s with search := { s.search with nextNumber := numberAfter s.search.nextNumber } }

/-- SEARCH_START's own rule with the body's fields held (R124). -/
def searchStartOwn (r : Request) (w : RawSearch) (s : State) : State :=
  match searchRefusal w s with
  | some code => refuse r code s
  | none => startSearch w (answer r .ok (.searchNumber s.search.nextNumber) s)

/-- SEARCH_START (R124). -/
def execSearchStart (h : ReqHead) (b : Fit RawSearch) (s : State) : Host.Outcome State Fault Refusal :=
  runRequest ⟨h, .searchStart b⟩ (withBody ⟨h, .searchStart b⟩ b (searchStartOwn ⟨h, .searchStart b⟩)) s

/-- SEARCH_ABORT's own rule (R139): in ENDING the response carries the cause already fixed. -/
def searchAbortOwn (r : Request) (s : State) : State :=
  match s.search.record with
  | none => refuse r .notFound s
  | some x =>
    fixCause .aborted (answer r .ok (.searchAborted x.number (if x.state = .ending then x.cause else none)) s)

/-- SEARCH_ABORT (R139). -/
def execSearchAbort (h : ReqHead) (s : State) : Host.Outcome State Fault Refusal :=
  runRequest ⟨h, .searchAbort⟩ (noBody ⟨h, .searchAbort⟩ (searchAbortOwn ⟨h, .searchAbort⟩)) s

/-! ## Direct commands -/

/-- A direct command accepted (R115): appended to the direct queue, its request holding the head. -/
def placeDirect (address : Nat) (c : TlmCommand) (tag : Word16) (s : State) : State :=
  hold { s with tlm := { s.tlm with
    directQueue := s.tlm.directQueue ++ [{ address := address, command := c, tag := tag }] } }

/-- The conditions of DIRECT_STEP after the body's, in their order (R116). -/
def directStepRefusal (w : RawStep) (s : State) : Option Completion :=
  if !(within 1 254 w.address && within 1 3 w.level && within 1 60 w.hold) then some .badValue
  else if (tableGet s.tlm.entries w.address).isNone then some .notFound
  else if searchHolds s w.address then some .legBusy
  else if s.search.record.isSome then some .searchActive
  else if !allPass s.tlm.entries then some .legBusy
  else none

/-- DIRECT_STEP's own rule with the body's fields held (R116). -/
def directStepOwn (r : Request) (w : RawStep) (s : State) : State :=
  match directStepRefusal w s with
  | some code => refuse r code s
  | none => placeDirect w.address (.step w.level w.hold) r.head.tag s

/-- DIRECT_STEP (R116). -/
def execDirectStep (h : ReqHead) (b : Fit RawStep) (s : State) : Host.Outcome State Fault Refusal :=
  runRequest ⟨h, .directStep b⟩ (withBody ⟨h, .directStep b⟩ b (directStepOwn ⟨h, .directStep b⟩)) s

/-- The conditions of DIRECT_RELEASE after the body's, in their order (R117). -/
def directReleaseRefusal (address : Nat) (s : State) : Option Completion :=
  if !within 1 254 address then some .badValue
  else if (tableGet s.tlm.entries address).isNone then some .notFound
  else if searchHolds s address then some .legBusy
  else none

/-- DIRECT_RELEASE's own rule with the body's field held (R117). -/
def directReleaseOwn (r : Request) (address : Nat) (s : State) : State :=
  match directReleaseRefusal address s with
  | some code => refuse r code s
  | none => placeDirect address .release r.head.tag s

/-- DIRECT_RELEASE (R117). -/
def execDirectRelease (h : ReqHead) (b : Fit Nat) (s : State) : Host.Outcome State Fault Refusal :=
  runRequest ⟨h, .directRelease b⟩ (withBody ⟨h, .directRelease b⟩ b (directReleaseOwn ⟨h, .directRelease b⟩)) s

/-- The conditions of DIRECT_QUERY after the body's, in their order (R117). -/
def directQueryRefusal (address : Nat) (s : State) : Option Completion :=
  if !within 1 254 address then some .badValue
  else if (tableGet s.tlm.entries address).isNone then some .notFound
  else none

/-- DIRECT_QUERY's own rule with the body's field held (R117). -/
def directQueryOwn (r : Request) (address : Nat) (s : State) : State :=
  match directQueryRefusal address s with
  | some code => refuse r code s
  | none => placeDirect address .query r.head.tag s

/-- DIRECT_QUERY (R117). -/
def execDirectQuery (h : ReqHead) (b : Fit Nat) (s : State) : Host.Outcome State Fault Refusal :=
  runRequest ⟨h, .directQuery b⟩ (withBody ⟨h, .directQuery b⟩ b (directQueryOwn ⟨h, .directQuery b⟩)) s

/-! ## Band watch -/

/-- COUNTER_SNAPSHOT's own rule (R96): a transfer in MANUAL mode, refused in AUTO. -/
def counterSnapshotOwn (r : Request) (s : State) : State :=
  match s.mgmt.settings.mode with
  | .auto => refuse r .badRequest s
  | .manual =>
    let t := intervalTransfer s
    answer r .ok (.transferTime t.bands.lastTransfer) t

/-- COUNTER_SNAPSHOT (R96). -/
def execCounterSnapshot (h : ReqHead) (s : State) : Host.Outcome State Fault Refusal :=
  runRequest ⟨h, .counterSnapshot⟩ (noBody ⟨h, .counterSnapshot⟩ (counterSnapshotOwn ⟨h, .counterSnapshot⟩)) s

end Sys2Proof.Machine
end

