-- ==== Sys2Proof/Machine/MapRequests.lean ====
section
/-! DEFINITION. The requests that edit, close and attach (R5 to R11, R17 to R21), with the completion of a close. -/

namespace Sys2Proof.Machine

/-! ## Editing -/

/-- The map leaves READY, if it is there: an analysis in progress will find that it has (R4, R31). -/
def leaveReady (s : State) : State :=
  if s.map.state = .ready then { s with echo := noteMapLeft s.echo } else s

/-- The effect of an accepted MAP_OPEN (R5): the map is EDIT and the tally is emptied. -/
def openMap (s : State) : State :=
  let t := leaveReady s
  { t with map := { t.map with state := .edit }, tally := emptyTally t.tally }

/-- MAP_OPEN's own rule (R5). -/
def mapOpenOwn (r : Request) (s : State) : State :=
  if s.map.state = .edit then refuse r .mapState s
  else if s.search.record.isSome then refuse r .searchActive s
  else if !allPass s.tlm.entries then refuse r .legBusy s
  else answer r .ok .empty (openMap s)

/-- MAP_OPEN (R5). -/
def execMapOpen (h : ReqHead) (s : State) : Host.Outcome State Fault Refusal :=
  runRequest ⟨h, .mapOpen⟩ (noBody ⟨h, .mapOpen⟩ (mapOpenOwn ⟨h, .mapOpen⟩)) s

/-- The element table replaced. -/
def setElements (t : Table Element) (s : State) : State := { s with map := { s.map with elements := t } }

/-- Element records written into their slots in the order they stand (R7). -/
def writeElements (records : List RawElement) (t : Table Element) : Table Element :=
  records.foldl (fun t r => tableSet t r.number (elementOf r)) t

/-- MAP_WRITE on an EDIT map with the body's fields held (R6, R7). R6 gives its refusals of a wrong length and of a count out of
range no order; where both apply the answer is BAD_REQUEST. DESIGN CHOICE, notes/assumptions/29.md. -/
def mapWriteFields (r : Request) (w : Nat × List RawElement) (s : State) : State :=
  if w.2.length ≠ w.1 then refuse r .badRequest s
  else if !within 1 32 w.1 then refuse r .badValue s
  else
    match firstBadElement 1 w.2 with
    | some i => answer r .badValue (.position i) s
    | none =>
      let t := writeElements w.2 s.map.elements
      answer r .ok (.elementCount t.length) (setElements t s)

/-- MAP_WRITE's own rule (R6): refused with MAP_STATE unless the map is EDIT, before its body is examined. -/
def mapWriteOwn (r : Request) (b : Fit (Nat × List RawElement)) (s : State) : State :=
  if s.map.state = .edit then withBody r b (mapWriteFields r) s else refuse r .mapState s

/-- MAP_WRITE (R6). -/
def execMapWrite (h : ReqHead) (b : Fit (Nat × List RawElement)) (s : State) : Host.Outcome State Fault Refusal :=
  runRequest ⟨h, .mapWrite b⟩ (mapWriteOwn ⟨h, .mapWrite b⟩ b) s

/-- The element table with named slots vacated. -/
def deleteElements (numbers : List Nat) (t : Table Element) : Table Element := numbers.foldl tableDel t

/-- MAP_DELETE on an EDIT map with the body's fields held (R8). R8 gives its refusals of a wrong length and of a count or number
out of range no order; where both apply the answer is BAD_REQUEST. DESIGN CHOICE, notes/assumptions/29.md. -/
def mapDeleteFields (r : Request) (w : Nat × List Nat) (s : State) : State :=
  if w.2.length ≠ w.1 then refuse r .badRequest s
  else if !(within 1 32 w.1 && w.2.all (within 0 511)) then refuse r .badValue s
  else
    let t := deleteElements w.2 s.map.elements
    answer r .ok (.deleteCounts (s.map.elements.length - t.length) t.length) (setElements t s)

/-- MAP_DELETE's own rule (R8): refused with MAP_STATE unless the map is EDIT, before its body is examined. -/
def mapDeleteOwn (r : Request) (b : Fit (Nat × List Nat)) (s : State) : State :=
  if s.map.state = .edit then withBody r b (mapDeleteFields r) s else refuse r .mapState s

/-- MAP_DELETE (R8). -/
def execMapDelete (h : ReqHead) (b : Fit (Nat × List Nat)) (s : State) : Host.Outcome State Fault Refusal :=
  runRequest ⟨h, .mapDelete b⟩ (mapDeleteOwn ⟨h, .mapDelete b⟩ b) s

/-- MAP_CLEAR's own rule (R9): every slot vacated, the validation error kept. -/
def mapClearOwn (r : Request) (s : State) : State :=
  if s.map.state = .edit then answer r .ok .empty (setElements [] s) else refuse r .mapState s

/-- MAP_CLEAR (R9). -/
def execMapClear (h : ReqHead) (s : State) : Host.Outcome State Fault Refusal :=
  runRequest ⟨h, .mapClear⟩ (noBody ⟨h, .mapClear⟩ (mapClearOwn ⟨h, .mapClear⟩)) s

/-! ## Closing -/

/-- The close operation begins (R10). -/
def beginClose (s : State) : State := hold { s with map := { s.map with closing := true } }

/-- MAP_CLOSE's own rule (R10). -/
def mapCloseOwn (r : Request) (s : State) : State :=
  if s.map.state ≠ .edit then refuse r .mapState s
  else if !allPass s.tlm.entries then refuse r .legBusy s
  else beginClose s

/-- MAP_CLOSE (R10). -/
def execMapClose (h : ReqHead) (s : State) : Host.Outcome State Fault Refusal :=
  runRequest ⟨h, .mapClose⟩ (noBody ⟨h, .mapClose⟩ (mapCloseOwn ⟨h, .mapClose⟩)) s

/-- Every occupied entry STALE (R11, R21). -/
def allStale (as : Table Attachment) : Table Attachment := tableMap as (fun a => { a with validity := .stale })

/-- The map with no element present: EMPTY, every attachment STALE, no tracked address (R11, R119). -/
def becomeEmpty (s : State) : State :=
  { s with
    map := { s.map with state := .empty, error := none, closing := false, attachments := allStale s.map.attachments }
    tlm := rebuild [] s.tlm }

/-- The map with a valid tree: READY, the attachment pass run, the tracking table rebuilt (R11, R21, R119). -/
def becomeReady (s : State) : State :=
  { s with
    map := { s.map with state := .ready, error := none, closing := false,
                        attachments := attachmentPass s.map.elements s.map.attachments }
    tlm := rebuild (legAddresses s.map.elements) s.tlm }

/-- The close in progress completes (R11), in one of three ways. The element table cannot have changed since it began, as
the close holds the head of the request queue (R10). -/
def completeClose (s : State) : State :=
  if s.map.closing then
    if s.map.elements = [] then answerHead .ok .empty (becomeEmpty s)
    else
      match validate s.map.elements with
      | none => answerHead .ok .empty (becomeReady s)
      | some e => answerHead .badValue (.mapError e) { s with map := { s.map with error := some e, closing := false } }
  else s

/-- MAP_CLOSE_COMPLETION (R11). -/
def execMapCloseCompletion (s : State) : Host.Outcome State Fault Refusal := inTurn completeClose s

/-! ## Attachments -/

/-- The attachment table replaced. -/
def setAttachments (t : Table Attachment) (s : State) : State := { s with map := { s.map with attachments := t } }

/-- ATTACH_SET's value checks, in the order of R17. -/
def attachOk (t : Table Element) (w : RawAttach) : Bool :=
  w.station != 0 &&
    (match tableGet t w.element with
     | some e => e.kind == .tap && within 1 ((e.tapPorts.map (·.val)).getD 0) w.port
     | none => false)
    && within 0 2000 w.drop

/-- ATTACH_SET on a READY map with the body's fields held (R17 to R19). -/
def attachSetFields (r : Request) (w : RawAttach) (s : State) : State :=
  if attachOk s.map.elements w then
    match indexOfStation s.map.attachments w.station with
    | some (i, a) =>
      let t := setAttachments (tableSet s.map.attachments i (attachmentOf w)) s
      answer r .ok (.attachIndex i) (if a.element = w.element ∧ a.port = w.port then t else removeVoter i t)
    | none =>
      match lowestFree s.map.attachments 1024 0 with
      | some i => answer r .ok (.attachIndex i) (setAttachments (tableSet s.map.attachments i (attachmentOf w)) s)
      | none => refuse r .tableFull s
  else refuse r .badValue s

/-- ATTACH_SET's own rule (R17): refused with MAP_STATE unless the map is READY, before its body is examined. -/
def attachSetOwn (r : Request) (b : Fit RawAttach) (s : State) : State :=
  if s.map.state = .ready then withBody r b (attachSetFields r) s else refuse r .mapState s

/-- ATTACH_SET (R17). -/
def execAttachSet (h : ReqHead) (b : Fit RawAttach) (s : State) : Host.Outcome State Fault Refusal :=
  runRequest ⟨h, .attachSet b⟩ (attachSetOwn ⟨h, .attachSet b⟩ b) s

/-- ATTACH_DELETE's own rule with the body's field held (R20). -/
def attachDeleteOwn (r : Request) (station : Word32) (s : State) : State :=
  match indexOfStation s.map.attachments station with
  | some (i, _) => answer r .ok (.attachIndex i) (removeVoter i (setAttachments (tableDel s.map.attachments i) s))
  | none => refuse r .notFound s

/-- ATTACH_DELETE (R20): accepted in every map state. -/
def execAttachDelete (h : ReqHead) (b : Fit Word32) (s : State) : Host.Outcome State Fault Refusal :=
  runRequest ⟨h, .attachDelete b⟩ (withBody ⟨h, .attachDelete b⟩ b (attachDeleteOwn ⟨h, .attachDelete b⟩)) s

end Sys2Proof.Machine
end

