-- ==== Sys2Proof/Machine/ImageOps.lean ====
section
/-! DEFINITION. The configuration image (R192 to R195): when it is good, what its load does, and the records a save writes. -/

namespace Sys2Proof.Machine

/-! ## A good image (R192) -/

/-- A record passes the checks a write of its table would make (R192). An attachment's index must be one of the table's, 0..1023
(R16), which no check of R17 says (DESIGN CHOICE, notes/assumptions/19.md). -/
def recordOk : ImageRecord → Bool
  | .settings r => (settingsFault r).isNone
  | .channel r => within 0 7 r.channel && (channelOf r).isSome
  | .band r => within 0 31 r.band && (bandOf r).isSome
  | .correction n c => within 0 31 n && correctionOk c
  | .slot r => slotShapeOk r && within 0 7 r.slot && (slotOf r).isSome
  | .alarm r => within 0 3 r.line && (alarmOf r).isSome
  | .element r => elementOk r
  | .attachment i r => within 0 1023 i && attachImageOk r

/-- The settings records of an image. -/
def imageSettings (l : List ImageRecord) : List RawSettings :=
  l.filterMap (fun x => match x with
    | .settings r => some r
    | _ => none)

/-- The channel records of an image. -/
def imageChannels (l : List ImageRecord) : List RawChannel :=
  l.filterMap (fun x => match x with
    | .channel r => some r
    | _ => none)

/-- The band records of an image. -/
def imageBands (l : List ImageRecord) : List RawBand :=
  l.filterMap (fun x => match x with
    | .band r => some r
    | _ => none)

/-- The correction records of an image. -/
def imageCorrections (l : List ImageRecord) : List (Nat × Correction) :=
  l.filterMap (fun x => match x with
    | .correction n c => some (n, c)
    | _ => none)

/-- The report slot records of an image. -/
def imageSlots (l : List ImageRecord) : List RawSlot :=
  l.filterMap (fun x => match x with
    | .slot r => some r
    | _ => none)

/-- The alarm line records of an image. -/
def imageAlarms (l : List ImageRecord) : List RawAlarm :=
  l.filterMap (fun x => match x with
    | .alarm r => some r
    | _ => none)

/-- The element records of an image. -/
def imageElements (l : List ImageRecord) : List RawElement :=
  l.filterMap (fun x => match x with
    | .element r => some r
    | _ => none)

/-- The attachment records of an image, each with its index. -/
def imageAttachments (l : List ImageRecord) : List (Nat × RawAttach) :=
  l.filterMap (fun x => match x with
    | .attachment i r => some (i, r)
    | _ => none)

/-- The counts of R192's table hold: one settings record, and no number, index or station id twice. With every record
in its range, distinct numbers also keep each count within its bound. -/
def countsOk (l : List ImageRecord) : Bool :=
  decide ((imageSettings l).length = 1)
    && distinct ((imageChannels l).map (·.channel))
    && distinct ((imageBands l).map (·.band))
    && distinct ((imageCorrections l).map (·.1))
    && distinct ((imageSlots l).map (·.slot))
    && distinct ((imageAlarms l).map (·.line))
    && distinct ((imageElements l).map (·.number))
    && distinct ((imageAttachments l).map (·.1))
    && distinct ((imageAttachments l).map (·.2.station))

/-- The image is good (R192). -/
def imageGood (f : Flash) : Bool :=
  decide (f.format = 1)
    && decide ((Config.recordBytes f.records).length = f.length)
    && decide (checkValue (Config.recordBytes f.records) = f.crc)
    && countsOk f.records
    && f.records.all recordOk

/-! ## Loading a good image (R193) -/

/-- Step 1: the settings record is written, each changed field taking effect. -/
def loadSettings (l : List ImageRecord) (s : State) : State :=
  (imageSettings l).foldl (fun t r => applySettings (settingsOf r) t) s

/-- Step 2: channel, band, correction and alarm line records replace their entries. -/
def loadEntries (l : List ImageRecord) (s : State) : State :=
  let s := (imageChannels l).foldl (fun t r => (channelOf r).elim t (fun c => setChannel r.channel c t)) s
  let s := (imageBands l).foldl (fun t r => (bandOf r).elim t (fun b => setBand r.band b t)) s
  let s := (imageCorrections l).foldl (fun t p => setCorrections p.1 [p.2] t) s
  (imageAlarms l).foldl (fun t r => (alarmOf r).elim t (fun a => setAlarm r.line a t)) s

/-- Step 3: report slot records are written in ascending slot number. -/
def loadSlots (l : List ImageRecord) (s : State) : State :=
  (sortBy (fun a b => decide (a.slot ≤ b.slot)) (imageSlots l)).foldl
    (fun t r => (slotOf r).elim t (fun e => setSlot r.slot e t)) s

/-- The element table an image holds. -/
def imageElementTable (l : List ImageRecord) : Table Element :=
  tableOf ((imageElements l).map (fun r => (r.number, elementOf r)))

/-- The attachment table an image holds, every entry VALID. -/
def imageAttachmentTable (l : List ImageRecord) : Table Attachment :=
  tableOf ((imageAttachments l).map (fun p => (p.1, attachmentOf p.2)))

/-- Step 4: a READY map leaves READY and the tally is emptied; the element slots are vacated and filled. -/
def loadElements (l : List ImageRecord) (s : State) : State :=
  let t := leaveReady s
  { t with
    map := { t.map with elements := imageElementTable l }
    tally := if s.map.state = .ready then emptyTally t.tally else t.tally }

/-- Steps 5 to 7: the map is validated, the attachment table filled, the tracking table rebuilt (R119). -/
def loadMap (l : List ImageRecord) (s : State) : State :=
  let t := s.map.elements
  let as := imageAttachmentTable l
  if t = [] then
    { s with
      map := { s.map with state := .empty, error := none, attachments := allStale as }
      tlm := rebuild [] s.tlm }
  else
    match validate t with
    | none =>
      { s with
        map := { s.map with state := .ready, error := none, attachments := attachmentPass t as }
        tlm := rebuild (legAddresses t) s.tlm }
    | some e =>
      { s with
        map := { s.map with state := .edit, error := some e, attachments := as }
        tlm := rebuild [] s.tlm }

/-- The image status set as a load completes (R192, R193 step 8). -/
def setStatus (st : ImageStatus) (s : State) : State := { s with image := { s.image with status := st, load := none } }

/-- The completion of a load of a good image (R193, steps 1 to 8). -/
def loadGood (l : List ImageRecord) (s : State) : State :=
  setStatus .loaded (loadMap l (loadElements l (loadSlots l (loadEntries l (loadSettings l s)))))

/-! ## Saving (R195) -/

/-- The settings record as an image record. -/
def rawSettings (r : Settings) : RawSettings :=
  { window := r.window, promote := r.promote, aging := r.aging, mFull := r.mFull, mLow := r.mLow, watchdog := r.watchdog,
    mode := some r.mode, interval := r.interval, crcThreshold := r.crcThreshold }

/-- A channel entry as an image record. -/
def rawChannel (n : Nat) (c : Channel) : RawChannel :=
  { channel := n, enabled := some c.enabled, rate := some c.rate, threshold := c.threshold }

/-- A band entry as an image record. -/
def rawBand (n : Nat) (b : Band) : RawBand :=
  { band := n, enabled := some b.enabled, start := b.start, stop := b.stop, floor := b.floor, declareMargin := b.declareMargin,
    clearMargin := b.clearMargin, minBins := b.minBins, declareCount := b.declareCount, clearCount := b.clearCount,
    mode := some b.mode }

/-- A report slot entry as an image record. -/
def rawSlot (n : Nat) (e : SlotEntry) : RawSlot :=
  { slot := n, enabled := some e.enabled, repeats := some e.repeats, kind := some e.kind, trigger := some e.trigger,
    period := e.period, events := e.events.map (fun v => { set := v, other := false }), bandFilter := e.bandFilter }

/-- An alarm line entry as an image record. -/
def rawAlarm (n : Nat) (e : AlarmEntry) : RawAlarm := { line := n, source := some e.source, polarity := some e.polarity }

/-- An element as an image record. -/
def rawElement (n : Nat) (e : Element) : RawElement :=
  { number := n, kind := some e.kind, parent := e.parent, delay := e.delay, tapPorts := e.tapPorts, legAddress := e.legAddress }

/-- An attachment as an image record holds it (R192). -/
def rawAttach (a : Attachment) : RawAttach :=
  { station := a.station, element := a.element, port := a.port, drop := a.drop }

/-- A list's elements made into records with their numbers from `i` up. -/
def numbered {α β : Type} (f : Nat → α → β) : Nat → List α → List β
  | _, [] => []
  | i, x :: rest => f i x :: numbered f (i + 1) rest

/-- Every table as a save finds it when it begins (R195). -/
def imageRecords (s : State) : List ImageRecord :=
  [.settings (rawSettings s.mgmt.settings)]
    ++ numbered (fun i c => .channel (rawChannel i c)) 0 s.echo.channels
    ++ numbered (fun i x => .band (rawBand i x.entry)) 0 s.bands.bands
    ++ numbered (fun i c => .correction i c) 0 s.sweep.corrections
    ++ numbered (fun i x => .slot (rawSlot i x.entry)) 0 s.reports.slots
    ++ numbered (fun i e => .alarm (rawAlarm i e)) 0 s.reports.alarms
    ++ s.map.elements.map (fun p => .element (rawElement p.1 p.2))
    ++ s.map.attachments.map (fun p => .attachment p.1 (rawAttach p.2))

/-- The format value the first step of a save leaves: any value but 1 (R195). -/
def savingFormat : Nat := if Config.savingFormat = 1 then 0 else Config.savingFormat

/-- The image a save of some records writes (R192, R195). -/
def savedFlash (l : List ImageRecord) : Flash :=
  { format := 1, length := (Config.recordBytes l).length, crc := checkValue (Config.recordBytes l), records := l }

/-- The length in bytes of the whole image in the flash: its header and its records (R192, R195). -/
def imageLength (f : Flash) : Nat := Config.headerBytes + f.length

end Sys2Proof.Machine
end

