-- ==== Sys2Proof/Machine/Link.lean ====
section
/-! DEFINITION. The commands of the return link (chapter 8): header tests, lock, loss and return of signal, frames that
arrive whole, the two transmitters' choices and the CRC interval. -/

namespace Sys2Proof.Machine

/-! ## Headers and lock -/

/-- A HUNTING lane with its signal tests the header at its expected position, or with the run at 0 at the next byte position
(R149). The third valid header in a row makes it LOCKED, its frame the first received. -/
def testHeader (lane : Lane) (h : List Byte) (s : State) : State :=
  let x := s.link.lane lane
  match x.lock with
  | .locked _ _ => s
  | .hunting run expected =>
    let p := testedAt expected x
    if x.signal && inOrder s.link p then
      let next := p + headerLength h
      let y :=
        if headerValid h then
          if 2 ≤ run then { x with lock := .locked 0 next, rx := some { header := h, start := p } }
          else { x with lock := .hunting (run + 1) (some next) }
        else if run = 0 then { x with cursor := p + 1 }
        else { x with lock := .hunting 0 none, cursor := p }
      { s with link := notePeak ((reachByte p s.link).setLane lane y) }
    else s

/-- HEADER_TEST_HUNTING (R149). -/
def execHeaderTestHunting (lane : Lane) (h : List Byte) (s : State) : Host.Outcome State Fault Refusal :=
  inTurn (testHeader lane h) s

/-- A LOCKED lane between frames finds a valid header at its expected position (R150, R155, R160); the invalid-header run
becomes 0 and the frame begins to enter its store as its bytes arrive. -/
def beginFrame (lane : Lane) (h : List Byte) (s : State) : State :=
  let x := s.link.lane lane
  match x.lock, x.rx with
  | .locked _ p, none =>
    if headerValid h && inOrder s.link p then
      let y := { x with lock := .locked 0 (p + headerLength h), rx := some { header := h, start := p } }
      { s with link := notePeak ((reachByte p s.link).setLane lane y) }
    else s
  | _, _ => s

/-- VALID_HEADER (R150). -/
def execValidHeader (lane : Lane) (h : List Byte) (s : State) : Host.Outcome State Fault Refusal :=
  inTurn (beginFrame lane h) s

/-- A LOCKED lane between frames finds no valid header at its expected position (R150); the fourth in a row makes it HUNTING
at that position. -/
def missHeader (lane : Lane) (h : List Byte) (s : State) : State :=
  let x := s.link.lane lane
  match x.lock, x.rx with
  | .locked run p, none =>
    if !headerValid h && inOrder s.link p then
      let y := { x with lock := .locked (run + 1) (p + 16), headerErrors := bump x.headerErrors }
      let t := { s with link := notePeak ((reachByte p s.link).setLane lane y) }
      if 3 ≤ run then loseLock lane p x.signal t else t
    else s
  | _, _ => s

/-- INVALID_HEADER (R150). -/
def execInvalidHeader (lane : Lane) (h : List Byte) (s : State) : Host.Outcome State Fault Refusal :=
  inTurn (missHeader lane h) s

/-- A receive lane's signal is lost (R151): a LOCKED lane becomes HUNTING and the frame in reception is cut short; on a
HUNTING lane the valid-header run becomes 0. While the signal is absent the lane tests nothing. The loss falls at the byte
time that the last event of the link has reached: DESIGN CHOICE, notes/assumptions/26.md. -/
def loseSignal (lane : Lane) (s : State) : State :=
  let x := s.link.lane lane
  match x.lock with
  | .locked _ _ => loseLock lane s.link.byteTime false s
  | .hunting _ _ => { s with link := s.link.setLane lane { x with lock := .hunting 0 none, signal := false } }

/-- LOSS_OF_SIGNAL (R151). -/
def execLossOfSignal (lane : Lane) (s : State) : Host.Outcome State Fault Refusal := inTurn (loseSignal lane) s

/-- The signal returns (R151): the hunt resumes at the first byte received, which is the one at the byte time that the last
event of the link has reached. DESIGN CHOICE, notes/assumptions/26.md. -/
def regainSignal (lane : Lane) (s : State) : State :=
  let x := s.link.lane lane
  if x.signal then s
  else { s with link := s.link.setLane lane { x with signal := true, cursor := s.link.byteTime } }

/-- SIGNAL_RETURN (R151). -/
def execSignalReturn (lane : Lane) (s : State) : Host.Outcome State Fault Refusal := inTurn (regainSignal lane) s

/-! ## Frames that arrive whole (R152) -/

/-- A BURST_DESC frame arrives whole on the node side (R25 to R27, R152): forwarded whatever its CRC; a good CRC offers it
to echo analysis. -/
def receiveDescriptor (f : Frame) (s : State) : State :=
  if arrives .nodeSide f s.link = true ∧ headerKind f = kindBurstDesc then
    let t := arrive .nodeSide f false s
    if crcGood f then { t with echo := offerDescriptor f t.echo } else t
  else s

/-- BURST_DESC (R25). -/
def execBurstDesc (f : Frame) (s : State) : Host.Outcome State Fault Refusal := inTurn (receiveDescriptor f) s

/-- A SPECTRUM_SEG frame arrives whole on the node side (R67, R152): forwarded, and handed to sweep intake whatever its CRC. -/
def receiveSegment (f : Frame) (s : State) : State :=
  if arrives .nodeSide f s.link = true ∧ headerKind f = kindSpectrumSeg then takeSegment f (arrive .nodeSide f false s) else s

/-- SPECTRUM_SEG (R67). -/
def execSpectrumSeg (f : Frame) (s : State) : Host.Outcome State Fault Refusal := inTurn (receiveSegment f) s

/-- A request addressed to the part arrives whole and is taken (R161, R167): its place in the store is marked, and
management is handed the request. `body` is what its body's fields hold (notes/assumptions/8.md). -/
def takeRequest (f : Frame) (body : ReqBody) (s : State) : State :=
  if arrives .hubSide f s.link = true ∧ addressedToPart f s = true ∧ body.fitsKind (byteAt f 8) = true then
    let t := arrive .hubSide f true s
    { t with
      link := { t.link with requestsTaken := bump t.link.requestsTaken }
      mgmt := handRequest { head := reqHeadOf f, body := body } t.mgmt }
  else s

/-- MGMT_REQ (R161). -/
def execMgmtReq (f : Frame) (body : ReqBody) (s : State) : Host.Outcome State Fault Refusal := inTurn (takeRequest f body) s

/-- A frame is one of those the rows BURST_DESC, SPECTRUM_SEG and MGMT_REQ receive. -/
def hasOwnRow (lane : Lane) (f : Frame) (s : State) : Bool :=
  match lane with
  | .nodeSide => headerKind f == kindBurstDesc || headerKind f == kindSpectrumSeg
  | .hubSide => addressedToPart f s

/-- Any other frame arrives whole (R152): FILL, NODE_CTL, other kinds, and requests that are not taken. -/
def receiveOther (lane : Lane) (f : Frame) (s : State) : State :=
  if arrives lane f s.link = true ∧ hasOwnRow lane f s = false then arrive lane f false s else s

/-- FRAME_ARRIVAL (R152). -/
def execFrameArrival (lane : Lane) (f : Frame) (s : State) : Host.Outcome State Fault Refusal := inTurn (receiveOther lane f) s

/-! ## The transmitters (R156, R158, R160, R186) -/

/-- The hub-side transmitter begins to send, the byte time at the moment its last frame ended. -/
def hubSend (what : HubSent) (length : Nat) (l : Link) : Link :=
  notePeak { l with hubTx := { sending := what, endsAt := l.byteTime + length } }

/-- The slot at the head of the report queue is chosen (R186): its report is composed and sent; with repeat no the slot
disables itself, with repeat yes a NOW slot is queued again at the tail. -/
def sendReport (q : QueuedSlot) (rest : List QueuedSlot) (x : ReportSlot) (l : Link) (s : State) : State :=
  let r := composeReport { s with link := l } q x.entry.kind
  let left : Reports := { s.reports with queue := rest }
  let reports : Reports :=
    if x.entry.repeats then
      if x.entry.trigger = .now then { left with queue := enqueueSlot q.slot .now rest } else left
    else { left with slots := left.slots.set q.slot { entry := { x.entry with enabled := false }, due := none } }
  { s with
    reports := reports
    link := hubSend (.report r) r.frame.length { l with reportsSent := bump l.reportsSent } }

/-- The hub-side transmitter chooses (R156, R158): the oldest response below the high mark, else the report at the head of the
report queue below the high mark, else the head frame of the pass-through buffer, else one FILL. -/
def hubChoice (s : State) : State :=
  let l := notePeak (reachByte s.link.hubTx.endsAt s.link)
  let low := occupancy l < highMark
  match s.mgmt.responses, s.reports.queue, l.through with
  | r :: rest, queue, through =>
    if low then
      { s with
        mgmt := { s.mgmt with responses := rest }
        link := hubSend (.response r) r.frame.length { l with responsesSent := bump l.responsesSent } }
    else
      match through, queue with
      | f :: later, _ => { s with link := hubSend (.through f) f.length { l with through := later } }
      | [], _ => { s with link := hubSend (.fill s.mgmt.nodeAddress) 16 l }
  | [], q :: queue, through =>
    match (if low then s.reports.slots[q.slot]? else none), through with
    | some x, _ => sendReport q queue x l s
    | none, f :: later => { s with link := hubSend (.through f) f.length { l with through := later } }
    | none, [] => { s with link := hubSend (.fill s.mgmt.nodeAddress) 16 l }
  | [], [], f :: later => { s with link := hubSend (.through f) f.length { l with through := later } }
  | [], [], [] => { s with link := hubSend (.fill s.mgmt.nodeAddress) 16 l }

/-- HUB_TX_CHOICE (R156). -/
def execHubTxChoice (s : State) : Host.Outcome State Fault Refusal :=
  inTurn (fun t => if hubChooses t.link then hubChoice t else t) s

/-- The node-side transmitter begins to send. -/
def nodeSend (what : NodeSent) (length : Nat) (l : Link) : Link :=
  { l with nodeTx := { sending := what, endsAt := l.byteTime + length } }

/-- The node-side transmitter chooses (R160): L FILLs in place of a taken request, else the head frame of the store, else
one FILL. The L FILLs are one choice, all from the node address then in force: DESIGN CHOICE, notes/assumptions/13.md. -/
def nodeChoice (s : State) : State :=
  let l := notePeak (reachByte s.link.nodeTx.endsAt s.link)
  match l.store with
  | x :: rest =>
    if x.taken then
      { s with link := nodeSend (.fills (x.frame.length / 16) s.mgmt.nodeAddress) x.frame.length { l with store := rest } }
    else { s with link := nodeSend (.frame x.frame) x.frame.length { l with store := rest } }
  | [] => { s with link := nodeSend (.fill s.mgmt.nodeAddress) 16 l }

/-- NODE_TX_CHOICE (R160). -/
def execNodeTxChoice (s : State) : Host.Outcome State Fault Refusal :=
  inTurn (fun t => if nodeChooses t.link then nodeChoice t else t) s

/-! ## The CRC monitors (R153, R154) -/

/-- A monitor at an interval expiry (R153). -/
def monitorExpiry (threshold : Nat) (x : RxLane) : RxLane :=
  { x with crc := { interval := 0, lastInterval := x.crc.interval, degraded := decide (threshold ≤ x.crc.interval) } }

/-- The interval timer expires (R153): both monitors are judged with the threshold in force and it restarts itself. -/
def crcExpiry (s : State) : State :=
  let t := reach s.link.crcDue s
  let th := t.mgmt.settings.crcThreshold
  { t with link := { t.link with
    node := monitorExpiry th t.link.node
    hub := monitorExpiry th t.link.hub
    crcDue := after t 1 } }

/-- CRC_INTERVAL_EXPIRY (R153). -/
def execCrcIntervalExpiry (s : State) : Host.Outcome State Fault Refusal := inTurn crcExpiry s

end Sys2Proof.Machine
end

