-- ==== Sys2Proof/Machine/System.lean ====
section
/-! DEFINITION. The part as a whole: power-on and pin reset (R196), plant time and the node address (R171, R173), the
image requests (R194, R195) with their completions, and the two reset requests (R177, R178). -/

namespace Sys2Proof.Machine

/-! ## Power and time -/

/-- POWER_ON (R196): the flash alone keeps what it held. -/
def execPowerOn (strap : Byte) (s : State) : Host.Outcome State Fault Refusal :=
  .next (State.powerOn strap s.image.flash s.pending)

/-- PIN_RESET (R196): the same state as power-on; a load, save or close in progress is abandoned. -/
def execPinReset (strap : Byte) (s : State) : Host.Outcome State Fault Refusal :=
  .next (State.powerOn strap s.image.flash s.pending)

/-- Plant time rises by 1, from 4294967295 to 0; the next rise comes one second after (R173). -/
def tick (s : State) : State :=
  let t := reach s.clocks.plantDue s
  { t with clocks := { t.clocks with plantTime := t.clocks.plantTime + 1, plantDue := after t 1 } }

/-- PLANT_TIME_TICK (R173). -/
def execPlantTimeTick (s : State) : Host.Outcome State Fault Refusal := inTurn tick s

/-- Plant time set; the next rise comes one second after the request is taken, here after its execution (R173; DESIGN
CHOICE, notes/assumptions/27.md). -/
def setTime (w : Word32) (s : State) : State :=
  { s with clocks := { s.clocks with plantTime := w, plantDue := after s 1 } }

/-- TIME_SET's own rule with the body's field held (R173): every value is accepted. -/
def timeSetOwn (r : Request) (w : Word32) (s : State) : State :=
  answer r .ok (.times s.clocks.plantTime w) (setTime w s)

/-- TIME_SET (R173). -/
def execTimeSet (h : ReqHead) (b : Fit Word32) (s : State) : Host.Outcome State Fault Refusal :=
  runRequest ⟨h, .timeSet b⟩ (withBody ⟨h, .timeSet b⟩ b (timeSetOwn ⟨h, .timeSet b⟩)) s

/-! ## The node address -/

/-- The node address replaced, its source OVERRIDE (R171). -/
def setAddress (a : Byte) (s : State) : State :=
  { s with mgmt := { s.mgmt with nodeAddress := a, addressSource := .override } }

/-- ADDRESS_SET's own rule with the body's field held (R171): the response is built after the change. -/
def addressSetOwn (r : Request) (a : Nat) (s : State) : State :=
  if within 1 254 a then
    answer r .ok (.addresses s.mgmt.nodeAddress (BitVec.ofNat 8 a)) (setAddress (BitVec.ofNat 8 a) s)
  else refuse r .badValue s

/-- ADDRESS_SET (R171). -/
def execAddressSet (h : ReqHead) (b : Fit Nat) (s : State) : Host.Outcome State Fault Refusal :=
  runRequest ⟨h, .addressSet b⟩ (withBody ⟨h, .addressSet b⟩ b (addressSetOwn ⟨h, .addressSet b⟩)) s

/-! ## Loads -/

/-- A load begins (R193): while it reads it changes no table. -/
def beginLoad (who : LoadOrigin) (s : State) : State := { s with image := { s.image with load := some who } }

/-- IMAGE_LOAD's own rule (R194, conditions 2 to 4). -/
def imageLoadOwn (r : Request) (s : State) : State :=
  if s.search.record.isSome then refuse r .searchActive s
  else if s.map.state = .edit then refuse r .mapState s
  else hold (beginLoad .request s)

/-- IMAGE_LOAD (R194). -/
def execImageLoad (h : ReqHead) (s : State) : Host.Outcome State Fault Refusal :=
  runRequest ⟨h, .imageLoad⟩ (noBody ⟨h, .imageLoad⟩ (imageLoadOwn ⟨h, .imageLoad⟩)) s

/-- What waits for a load is answered (R178, R194); after power-on and pin reset no request waits. -/
def answerLoad (who : LoadOrigin) (s : State) : State :=
  match who with
  | .startUp => s
  | .resetAll => answerHead .ok (.imageStatus s.image.status) s
  | .request =>
    match s.image.status with
    | .loaded => answerHead .ok (.imageLoaded .loaded s.map.state s.map.error) s
    | .invalid => answerHead .imageBad (.imageStatus .invalid) s

/-- The load in progress completes (R193): a good image replaces the tables, the map and the attachments; a bad one
changes nothing; the image status is set and a waiting request answered. With no load running none completes
(notes/assumptions/2.md). -/
def completeLoad (s : State) : State :=
  match s.image.load with
  | none => s
  | some who =>
    if imageGood s.image.flash then answerLoad who (loadGood s.image.flash.records s)
    else answerLoad who (setStatus .invalid s)

/-- IMAGE_LOAD_COMPLETION (R193). -/
def execImageLoadCompletion (s : State) : Host.Outcome State Fault Refusal := inTurn completeLoad s

/-! ## Saves -/

/-- A save begins (R195): the records as they stand are kept, and the flash's header is overwritten. -/
def beginSave (s : State) : State :=
  let flash := { s.image.flash with format := savingFormat }
  { s with image := { s.image with saving := some (imageRecords s), flash := flash } }

/-- IMAGE_SAVE's own rule (R195). -/
def imageSaveOwn (r : Request) (s : State) : State :=
  if s.map.state = .edit then refuse r .mapState s else hold (beginSave s)

/-- IMAGE_SAVE (R195). -/
def execImageSave (h : ReqHead) (s : State) : Host.Outcome State Fault Refusal :=
  runRequest ⟨h, .imageSave⟩ (noBody ⟨h, .imageSave⟩ (imageSaveOwn ⟨h, .imageSave⟩)) s

/-- The final header is written (R195). -/
def endSave (l : List ImageRecord) (s : State) : State :=
  { s with image := { s.image with saving := none, flash := savedFlash l } }

/-- The save in progress completes (R195): the image stands in the flash and the response is placed, OK with its length. -/
def completeSave (s : State) : State :=
  match s.image.saving with
  | none => s
  | some l => answerHead .ok (.imageLength (imageLength (savedFlash l))) (endSave l s)

/-- IMAGE_SAVE_COMPLETION (R195). -/
def execImageSaveCompletion (s : State) : Host.Outcome State Fault Refusal := inTurn completeSave s

/-! ## The reset requests -/

/-- The effect of RESET_ENGINES on each block (R3, R34, R66, R80, R98, R120, R145, R164, R179, R191). -/
def resetEnginesState (s : State) : State :=
  { s with
    sweep := resetSweep s.sweep.corrections
    bands := resetEnginesBands s.clocks.elapsed s.mgmt.settings s.bands
    echo := resetEcho s.echo.channels
    tally := resetTally (after s s.mgmt.settings.aging)
    tlm := resetEnginesTelemetry s.tlm
    search := resetSearch
    reports := resetEnginesReports s.clocks.elapsed s.reports }

/-- RESET_ENGINES's own rule (R177): one event, answered OK in it. -/
def resetEnginesOwn (r : Request) (s : State) : State := answer r .ok .empty (resetEnginesState s)

/-- RESET_ENGINES (R177). -/
def execResetEngines (h : ReqHead) (s : State) : Host.Outcome State Fault Refusal :=
  runRequest ⟨h, .resetEngines⟩ (noBody ⟨h, .resetEngines⟩ (resetEnginesOwn ⟨h, .resetEngines⟩)) s

/-- Band watch after RESET_ALL (R98): reset entries, the interval timer restarted with 60. -/
def resetAllBands (now : Nat) : BandWatch :=
  { bands := resetBands, lastTransfer := none, intervalDue := intervalStart now resetSettings }

/-- The effect of RESET_ALL at its beginning (R178): every effect of RESET_ENGINES, the tables, the settings record, the
map and the attachments at their reset values, the tracking table rebuilt with no addresses, the node address from the
strap, and the load begun (R192: the status INVALID). -/
def resetAllState (s : State) : State :=
  let t := resetEnginesState s
  { t with
    sweep := resetSweep resetCorrections
    bands := resetAllBands s.clocks.elapsed
    echo := resetEcho resetChannels
    tally := resetTally (after s resetSettings.aging)
    tlm := rebuild [] t.tlm
    map := powerOnMap
    reports := powerOnReports
    mgmt := { t.mgmt with settings := resetSettings, nodeAddress := strapAddress t.mgmt.strap, addressSource := .strap }
    image := { t.image with status := .invalid, load := some .resetAll } }

/-- RESET_ALL's own rule (R178): it holds the head until its load is done. -/
def resetAllOwn (s : State) : State := hold (resetAllState s)

/-- RESET_ALL (R178). -/
def execResetAll (h : ReqHead) (s : State) : Host.Outcome State Fault Refusal :=
  runRequest ⟨h, .resetAll⟩ (noBody ⟨h, .resetAll⟩ resetAllOwn) s

end Sys2Proof.Machine
end

