-- ==== Sys2Proof/Machine/Dispatch.lean ====
section
/-! DEFINITION. exec: one arm per command, each one call of the command's meaning. -/

namespace Sys2Proof.Machine

/-- The effect of a command on everything but the queue of waiting commands. -/
def exec (i : Instr) (s : State) : Host.Outcome State Fault Refusal :=
  match i with
  | .powerOn strap => Sys2Proof.Machine.execPowerOn strap s
  | .pinReset strap => Sys2Proof.Machine.execPinReset strap s
  | .plantTimeTick => Sys2Proof.Machine.execPlantTimeTick s
  | .lossOfSignal lane => Sys2Proof.Machine.execLossOfSignal lane s
  | .signalReturn lane => Sys2Proof.Machine.execSignalReturn lane s
  | .headerTestHunting lane header => Sys2Proof.Machine.execHeaderTestHunting lane header s
  | .invalidHeader lane header => Sys2Proof.Machine.execInvalidHeader lane header s
  | .burstDesc frame => Sys2Proof.Machine.execBurstDesc frame s
  | .spectrumSeg frame => Sys2Proof.Machine.execSpectrumSeg frame s
  | .mgmtReq frame body => Sys2Proof.Machine.execMgmtReq frame body s
  | .frameArrival lane frame => Sys2Proof.Machine.execFrameArrival lane frame s
  | .hubTxChoice => Sys2Proof.Machine.execHubTxChoice s
  | .nodeTxChoice => Sys2Proof.Machine.execNodeTxChoice s
  | .crcIntervalExpiry => Sys2Proof.Machine.execCrcIntervalExpiry s
  | .analysisBegin => Sys2Proof.Machine.execAnalysisBegin s
  | .analysisCompletion => Sys2Proof.Machine.execAnalysisCompletion s
  | .agingExpiry => Sys2Proof.Machine.execAgingExpiry s
  | .bandIntervalExpiry => Sys2Proof.Machine.execBandIntervalExpiry s
  | .tlmTransactionStart => Sys2Proof.Machine.execTlmTransactionStart s
  | .tlmReplyFrame frame => Sys2Proof.Machine.execTlmReplyFrame frame s
  | .tlmWatchdogExpiry => Sys2Proof.Machine.execTlmWatchdogExpiry s
  | .lapseDeadline address => Sys2Proof.Machine.execLapseDeadline address s
  | .measureDeadline => Sys2Proof.Machine.execMeasureDeadline s
  | .periodTimerExpiry slot => Sys2Proof.Machine.execPeriodTimerExpiry slot s
  | .statusRead h sel => Sys2Proof.Machine.execStatusRead h sel s
  | .unknownRequest h what => Sys2Proof.Machine.execUnknownRequest h what s
  | .tableReadChannel h fits => Sys2Proof.Machine.execTableReadChannel h fits s
  | .tableWriteChannel h b => Sys2Proof.Machine.execTableWriteChannel h b s
  | .tableReadBand h b => Sys2Proof.Machine.execTableReadBand h b s
  | .tableWriteBand h b => Sys2Proof.Machine.execTableWriteBand h b s
  | .tableReadCorrection h fits => Sys2Proof.Machine.execTableReadCorrection h fits s
  | .tableWriteCorrection h b => Sys2Proof.Machine.execTableWriteCorrection h b s
  | .tableReadSettings h fits => Sys2Proof.Machine.execTableReadSettings h fits s
  | .tableWriteSettings h b => Sys2Proof.Machine.execTableWriteSettings h b s
  | .tableReadReportSlot h fits => Sys2Proof.Machine.execTableReadReportSlot h fits s
  | .tableWriteReportSlot h b => Sys2Proof.Machine.execTableWriteReportSlot h b s
  | .tableReadAlarmLine h fits => Sys2Proof.Machine.execTableReadAlarmLine h fits s
  | .tableWriteAlarmLine h b => Sys2Proof.Machine.execTableWriteAlarmLine h b s
  | .mapOpen h => Sys2Proof.Machine.execMapOpen h s
  | .mapWrite h b => Sys2Proof.Machine.execMapWrite h b s
  | .mapDelete h b => Sys2Proof.Machine.execMapDelete h b s
  | .mapClear h => Sys2Proof.Machine.execMapClear h s
  | .mapClose h => Sys2Proof.Machine.execMapClose h s
  | .mapCloseCompletion => Sys2Proof.Machine.execMapCloseCompletion s
  | .mapRead h b => Sys2Proof.Machine.execMapRead h b s
  | .attachSet h b => Sys2Proof.Machine.execAttachSet h b s
  | .attachDelete h b => Sys2Proof.Machine.execAttachDelete h b s
  | .attachReadByStation h b => Sys2Proof.Machine.execAttachReadByStation h b s
  | .attachReadByRange h b => Sys2Proof.Machine.execAttachReadByRange h b s
  | .tallyReadBySlot h b => Sys2Proof.Machine.execTallyReadBySlot h b s
  | .tallyReadRanked h b => Sys2Proof.Machine.execTallyReadRanked h b s
  | .tallyReadByKey h b => Sys2Proof.Machine.execTallyReadByKey h b s
  | .tallyClearAll h fits => Sys2Proof.Machine.execTallyClearAll h fits s
  | .tallyClearFlags h fits => Sys2Proof.Machine.execTallyClearFlags h fits s
  | .searchStart h b => Sys2Proof.Machine.execSearchStart h b s
  | .searchAbort h => Sys2Proof.Machine.execSearchAbort h s
  | .resultReadLatest h fits => Sys2Proof.Machine.execResultReadLatest h fits s
  | .resultReadByNumber h b => Sys2Proof.Machine.execResultReadByNumber h b s
  | .directStep h b => Sys2Proof.Machine.execDirectStep h b s
  | .directRelease h b => Sys2Proof.Machine.execDirectRelease h b s
  | .directQuery h b => Sys2Proof.Machine.execDirectQuery h b s
  | .counterSnapshot h => Sys2Proof.Machine.execCounterSnapshot h s
  | .addressSet h b => Sys2Proof.Machine.execAddressSet h b s
  | .timeSet h b => Sys2Proof.Machine.execTimeSet h b s
  | .imageLoad h => Sys2Proof.Machine.execImageLoad h s
  | .imageLoadCompletion => Sys2Proof.Machine.execImageLoadCompletion s
  | .imageSave h => Sys2Proof.Machine.execImageSave h s
  | .imageSaveCompletion => Sys2Proof.Machine.execImageSaveCompletion s
  | .resetEngines h => Sys2Proof.Machine.execResetEngines h s
  | .resetAll h => Sys2Proof.Machine.execResetAll h s
  | .validHeader lane header => Sys2Proof.Machine.execValidHeader lane header s
  | .byteHeard b => Sys2Proof.Machine.execByteHeard b s

end Sys2Proof.Machine
end

