-- ==== Sys2Proof/Machine/LegUnit.lean ====
section
/-! DEFINITION. The leg unit as a partner on the telemetry line (R101 to R103): what it takes, what it becomes, what it
answers, and how its hold runs out. A unit is no part of the RL-640 and its state is no part of State; the part knows of it
by the reply frames alone (notes/assumptions/31.md). -/

namespace Sys2Proof.Machine

/-- A unit's step (R101): its level code and its remaining hold, which the unit counts itself, in ms. -/
structure UnitStep where
  level : Nat
  remaining : Nat
  deriving DecidableEq, Repr

/-- A leg unit (R101): its leg address, and its step in STEPPED, none in PASS. -/
structure LegUnit where
  address : Nat
  step : Option UnitStep
  deriving DecidableEq, Repr

/-- The command that a frame's code, level and hold bytes give a unit; none where it ignores the frame for them (R101). -/
def unitCommand (code level hold : Byte) : Option TlmCommand :=
  if code = 0x01 then
    if 1 ≤ level.toNat ∧ level.toNat ≤ 3 ∧ 1 ≤ hold.toNat ∧ hold.toNat ≤ 60 then some (.step level.toNat hold.toNat) else none
  else if code = 0x02 then some .release
  else if code = 0x03 then some .query
  else none

/-- The command a unit takes from a frame it hears; none for a frame it ignores (R101). -/
def LegUnit.takes (u : LegUnit) (f : List Byte) : Option TlmCommand :=
  if f.length = 6 ∧ byteAt f 0 = 0xD1 ∧ checkGood f = true ∧ (byteAt f 1).toNat = u.address then
    unitCommand (byteAt f 2) (byteAt f 3) (byteAt f 4)
  else none

/-- The unit after a command it takes: a STEP steps it and restarts its hold (R102), a RELEASE returns it to PASS and a QUERY
changes nothing (R103). -/
def LegUnit.after (u : LegUnit) (c : TlmCommand) : LegUnit :=
  match c with
  | .step level h => { u with step := some { level := level, remaining := seconds h } }
  | .release => { u with step := none }
  | .query => u

/-- The reply code that a unit answers a command with (R102, R103, R104). -/
def LegUnit.answerCode (u : LegUnit) (c : TlmCommand) : Byte :=
  match c with
  | .step _ _ => 0x81
  | .release => if u.step.isSome then 0x82 else 0x83
  | .query => 0x84

/-- Bytes 3 to 5 of a reply: the unit's state, its level code and its remaining hold in whole seconds, rounded up; zeros in
PASS (R103, R104). -/
def LegUnit.report (u : LegUnit) : List Byte :=
  match u.step with
  | some p => [0x01, BitVec.ofNat 8 p.level, BitVec.ofNat 8 (secondsUntil 0 p.remaining)]
  | none => [0x00, 0x00, 0x00]

/-- The reply frame of a unit to a command it takes, reporting the unit as it stands after the command (R101, R104). -/
def LegUnit.reply (u : LegUnit) (c : TlmCommand) : List Byte :=
  let body : List Byte := [0xD2, BitVec.ofNat 8 u.address, u.answerCode c] ++ (u.after c).report
  body ++ [checkByte body]

/-- A unit hears a frame: one it takes changes it and is answered, any other leaves it as it was and silent (R101). -/
def LegUnit.hears (u : LegUnit) (f : List Byte) : LegUnit × Option (List Byte) :=
  match u.takes f with
  | some c => (u.after c, some (u.reply c))
  | none => (u, none)

/-- Time passes at a unit: its remaining hold counts down, and one that runs out on the way has expired (R102). One that
reaches 0 at the very end has still to expire, so that a command of that moment may come first. -/
def LegUnit.waits (ms : Nat) (u : LegUnit) : LegUnit :=
  { u with step := u.step.bind (fun p => if p.remaining < ms then none else some { p with remaining := p.remaining - ms }) }

/-- The hold of a unit whose remaining hold is 0 expires: the unit returns to PASS by itself and sends nothing (R102). -/
def LegUnit.expires (u : LegUnit) : LegUnit := { u with step := u.step.filter (fun p => p.remaining != 0) }

/-- A unit is in PASS when it is powered up, and when power comes back (R101, R103). -/
def LegUnit.poweredUp (u : LegUnit) : LegUnit := { u with step := none }

end Sys2Proof.Machine
end

