-- ==== Sys2Proof/WellFormed.lean ====
section
/-! DEFINITION. Well-formed commands: what a sender can send at all. A command that is not well-formed still has a
meaning (it changes nothing where the spec has no such event); the checks here say which operands the spec admits. -/

namespace Sys2Proof

open Sys2Proof.Machine

/-- A header is six bytes (R147). -/
def headerShape (h : List Byte) : Bool := decide (h.length = 6)

/-- A whole frame: a valid header and 16·L bytes (R147). -/
def frameShape (f : Frame) : Bool := headerValid (f.take 6) && decide (f.length = headerLength f)

/-- The body a request row carries against the body length: fields need bytes, no body means no bytes (R165, R170). -/
def bodyShape (n : Nat) : ReqBody → Bool
  | .statusRead .common => decide (n = 0)
  | .statusRead _ => decide (1 ≤ n)
  | .tableReadChannel _ => decide (1 ≤ n)
  | .tableReadBand _ => decide (1 ≤ n)
  | .tableReadCorrection _ => decide (1 ≤ n)
  | .tableReadSettings _ => decide (1 ≤ n)
  | .tableReadReportSlot _ => decide (1 ≤ n)
  | .tableReadAlarmLine _ => decide (1 ≤ n)
  | .tableWriteChannel _ => decide (1 ≤ n)
  | .tableWriteBand _ => decide (1 ≤ n)
  | .tableWriteCorrection _ => decide (1 ≤ n)
  | .tableWriteSettings _ => decide (1 ≤ n)
  | .tableWriteReportSlot _ => decide (1 ≤ n)
  | .tableWriteAlarmLine _ => decide (1 ≤ n)
  | _ => true

/-- A request's head: a length code of a frame, a 16-bit body length, and a kind code that its body can go with (R147, R148, R165). -/
def headShape (r : Request) : Bool :=
  decide (1 ≤ r.head.lenCode) && decide (r.head.lenCode ≤ 35) && decide (r.head.bodyLen < 65536) && r.body.fitsKind r.head.kind
    && bodyShape r.head.bodyLen r.body

/-- The request that a request row executes; `none` for a command that is no request. -/
def Instr.request : Instr → Option Request
  | .statusRead h sel => some ⟨h, .statusRead sel⟩
  | .unknownRequest h what => some ⟨h, .unknownRequest what⟩
  | .tableReadChannel h fits => some ⟨h, .tableReadChannel fits⟩
  | .tableWriteChannel h b => some ⟨h, .tableWriteChannel b⟩
  | .tableReadBand h b => some ⟨h, .tableReadBand b⟩
  | .tableWriteBand h b => some ⟨h, .tableWriteBand b⟩
  | .tableReadCorrection h fits => some ⟨h, .tableReadCorrection fits⟩
  | .tableWriteCorrection h b => some ⟨h, .tableWriteCorrection b⟩
  | .tableReadSettings h fits => some ⟨h, .tableReadSettings fits⟩
  | .tableWriteSettings h b => some ⟨h, .tableWriteSettings b⟩
  | .tableReadReportSlot h fits => some ⟨h, .tableReadReportSlot fits⟩
  | .tableWriteReportSlot h b => some ⟨h, .tableWriteReportSlot b⟩
  | .tableReadAlarmLine h fits => some ⟨h, .tableReadAlarmLine fits⟩
  | .tableWriteAlarmLine h b => some ⟨h, .tableWriteAlarmLine b⟩
  | .mapOpen h => some ⟨h, .mapOpen⟩
  | .mapWrite h b => some ⟨h, .mapWrite b⟩
  | .mapDelete h b => some ⟨h, .mapDelete b⟩
  | .mapClear h => some ⟨h, .mapClear⟩
  | .mapClose h => some ⟨h, .mapClose⟩
  | .mapRead h b => some ⟨h, .mapRead b⟩
  | .attachSet h b => some ⟨h, .attachSet b⟩
  | .attachDelete h b => some ⟨h, .attachDelete b⟩
  | .attachReadByStation h b => some ⟨h, .attachReadByStation b⟩
  | .attachReadByRange h b => some ⟨h, .attachReadByRange b⟩
  | .tallyReadBySlot h b => some ⟨h, .tallyReadBySlot b⟩
  | .tallyReadRanked h b => some ⟨h, .tallyReadRanked b⟩
  | .tallyReadByKey h b => some ⟨h, .tallyReadByKey b⟩
  | .tallyClearAll h fits => some ⟨h, .tallyClearAll fits⟩
  | .tallyClearFlags h fits => some ⟨h, .tallyClearFlags fits⟩
  | .searchStart h b => some ⟨h, .searchStart b⟩
  | .searchAbort h => some ⟨h, .searchAbort⟩
  | .resultReadLatest h fits => some ⟨h, .resultReadLatest fits⟩
  | .resultReadByNumber h b => some ⟨h, .resultReadByNumber b⟩
  | .directStep h b => some ⟨h, .directStep b⟩
  | .directRelease h b => some ⟨h, .directRelease b⟩
  | .directQuery h b => some ⟨h, .directQuery b⟩
  | .counterSnapshot h => some ⟨h, .counterSnapshot⟩
  | .addressSet h b => some ⟨h, .addressSet b⟩
  | .timeSet h b => some ⟨h, .timeSet b⟩
  | .imageLoad h => some ⟨h, .imageLoad⟩
  | .imageSave h => some ⟨h, .imageSave⟩
  | .resetEngines h => some ⟨h, .resetEngines⟩
  | .resetAll h => some ⟨h, .resetAll⟩
  | _ => none

/-- The operands of a command that is no request are ones the spec admits. -/
def Instr.eventShape : Instr → Bool
  | .headerTestHunting _ h => headerShape h
  | .invalidHeader _ h => headerShape h && !headerValid h
  | .validHeader _ h => headerValid h
  | .burstDesc f => frameShape f && headerKind f == kindBurstDesc
  | .spectrumSeg f => frameShape f && headerKind f == kindSpectrumSeg
  | .mgmtReq f b =>
    frameShape f && headerKind f == kindMgmtReq && crcGood f && b.fitsKind (byteAt f 8) && bodyShape (beNat (field f 10 2)) b
  | .frameArrival _ f => frameShape f
  | .tlmReplyFrame f => decide (f.length = 7) && byteAt f 0 == 0xD2
  | .lapseDeadline a => decide (1 ≤ a) && decide (a ≤ 254)
  | .periodTimerExpiry n => decide (n < 8)
  | _ => true

/-- A command is well-formed. -/
def Instr.wf (i : Instr) : Bool :=
  match i.request with
  | some r => headShape r
  | none => i.eventShape

end Sys2Proof
end

