-- ==== Sys2Proof/Safety.lean ====
section
/-! DEFINITION. What the part keeps true whatever is sent to it: the laws that spec/ states of its queues, its map, its
tracking table, its tally, its bands, its tables, its results and its lanes. Each is a predicate of the state alone. -/

namespace Sys2Proof.Machine

/-! ## When a request executes (R166, R168 to R170) -/

/-- Execution of a request may begin: it heads the queue, none is executing, the response queue has room (R168). -/
def MayBegin (r : Request) (s : State) : Prop :=
  s.mgmt.requests.head? = some r ∧ s.mgmt.executing = false ∧ s.mgmt.responses.length < 4

/-- A request that may begin and passes the checks of R170, so that its kind's own rule decides. -/
def Executes (r : Request) (s : State) : Prop :=
  MayBegin r s
    ∧ r.head.bodyLen + 16 ≤ 16 * r.head.lenCode ∧ r.head.bodyLen ≤ 544
    ∧ r.head.kind ∈ knownKinds
    ∧ (r.head.address = 255 → r.head.kind = 0x01)
    ∧ (s.image.load.isSome = true → r.head.kind = 0x01)

/-! ## What is due to begin (R113, R168) -/

/-- A telemetry request may start on a free line: one of the search or the head of the direct queue, a STEP only while every
tracking entry is PASS (R112, R113). -/
def TransactionMayStart (s : State) : Prop :=
  let free := ∀ p ∈ s.tlm.entries, p.2.state = .pass
  (∃ q, s.tlm.searchRequest = some q ∧ (free ∨ ∀ level hold, q.command ≠ .step level hold))
    ∨ ∃ d rest, s.tlm.directQueue = d :: rest ∧ (free ∨ ∀ level hold, d.command ≠ .step level hold)

/-- Nothing is due to begin: no request may begin (R168) and no transaction may start on a free line (R113). Every event but a
beginning and a reset takes effect in such a state, and in no other (the model's deduction, notes/assumptions/28.md). -/
def Quiet (s : State) : Prop :=
  (∀ r, ¬ MayBegin r s) ∧ (s.tlm.transaction = none → ¬ TransactionMayStart s)

/-- Management after the request at the head has been answered: it has left the queue, and a response with its tag, its
kind code, the node address in force, a completion code and a body stands last in the response queue (R166, R168, R169). -/
def answered (r : Request) (code : Completion) (body : Body) (m : Mgmt) : Mgmt :=
  { m with
    requests := m.requests.tail
    executing := false
    responses := m.responses ++ [{ address := m.nodeAddress, tag := r.head.tag, kind := r.head.kind, code := code, body := body }] }

/-- The state with the request at the head answered and nothing else changed. -/
def replied (r : Request) (code : Completion) (body : Body) (s : State) : State :=
  { s with mgmt := answered r code body s.mgmt }

/-- A request whose body does not hold exactly the fields of its kind (R170): a body of another length, or bytes where the
kind carries none. -/
def misfits (r : Request) : Bool :=
  match r.body with
  | .statusRead sel => sel == .misfit
  | .unknownRequest _ => false
  | .tableReadChannel fits => !fits
  | .tableWriteChannel b => b.isNone
  | .tableReadBand b => b.isNone
  | .tableWriteBand b => b.isNone
  | .tableReadCorrection fits => !fits
  | .tableWriteCorrection b => b.isNone
  | .tableReadSettings fits => !fits
  | .tableWriteSettings b => b.isNone
  | .tableReadReportSlot fits => !fits
  | .tableWriteReportSlot b => b.isNone
  | .tableReadAlarmLine fits => !fits
  | .tableWriteAlarmLine b => b.isNone
  | .mapOpen => r.head.bodyLen != 0
  | .mapWrite b => b.isNone
  | .mapDelete b => b.isNone
  | .mapClear => r.head.bodyLen != 0
  | .mapClose => r.head.bodyLen != 0
  | .mapRead b => b.isNone
  | .attachSet b => b.isNone
  | .attachDelete b => b.isNone
  | .attachReadByStation b => b.isNone
  | .attachReadByRange b => b.isNone
  | .tallyReadBySlot b => b.isNone
  | .tallyReadRanked b => b.isNone
  | .tallyReadByKey b => b.isNone
  | .tallyClearAll fits => !fits
  | .tallyClearFlags fits => !fits
  | .searchStart b => b.isNone
  | .searchAbort => r.head.bodyLen != 0
  | .resultReadLatest fits => !fits
  | .resultReadByNumber b => b.isNone
  | .directStep b => b.isNone
  | .directRelease b => b.isNone
  | .directQuery b => b.isNone
  | .counterSnapshot => r.head.bodyLen != 0
  | .addressSet b => b.isNone
  | .timeSet b => b.isNone
  | .imageLoad => r.head.bodyLen != 0
  | .imageSave => r.head.bodyLen != 0
  | .resetEngines => r.head.bodyLen != 0
  | .resetAll => r.head.bodyLen != 0

/-! ## Validation (R12, R13) -/

/-- Element `n` of a table fails a check of R12. The 65th element carrying a leg unit is the one with 64 below it. -/
def failsCheck (t : Table Element) (reason : MapReason) (n : Nat) : Prop :=
  match reason with
  | .rootInvalid => n = 0 ∧ ¬ ∃ r, tableGet t 0 = some r ∧ r.kind = .node ∧ r.parent = none
  | .secondNode => ∃ r, tableGet t n = some r ∧ n ≠ 0 ∧ r.kind = .node
  | .parentMissing => ∃ r, tableGet t n = some r ∧ n ≠ 0 ∧ ∀ p, r.parent = some p → tableGet t p = none
  | .portNotOnRoot => ∃ r, tableGet t n = some r ∧ r.kind = .port ∧ r.parent ≠ some 0
  | .depthExceeded => (∃ r, tableGet t n = some r) ∧ 0 ∉ pathOf t n
  | .lineEndHasChild =>
    ∃ r, tableGet t n = some r ∧ r.kind = .lineEnd ∧ ∃ m x, tableGet t m = some x ∧ x.parent = some n
  | .tapPortsInvalid =>
    ∃ r, tableGet t n = some r ∧ r.kind = .tap ∧ r.tapPorts ≠ some 2 ∧ r.tapPorts ≠ some 4 ∧ r.tapPorts ≠ some 8
  | .legAddressDuplicate =>
    ∃ r, tableGet t n = some r ∧ r.legAddress ≠ 0 ∧ ∃ m x, m < n ∧ tableGet t m = some x ∧ x.legAddress = r.legAddress
  | .legCountExceeded =>
    ∃ r, tableGet t n = some r ∧ r.legAddress ≠ 0
      ∧ (t.filter (fun p => decide (p.1 < n) && p.2.legAddress != 0)).length = 64
  | .legNestingExceeded => (∃ r, tableGet t n = some r) ∧ 8 < ((pathOf t n).filter (fun e => legOf t e != 0)).length
  | .legFanoutExceeded =>
    ∃ r, tableGet t n = some r ∧ (n = 0 ∨ r.legAddress ≠ 0) ∧ 16 < (childLegs t n).length

/-- The checks in the order they are examined (R12). -/
def checkOrder : List MapReason :=
  [.rootInvalid, .secondNode, .parentMissing, .portNotOnRoot, .depthExceeded, .lineEndHasChild, .tapPortsInvalid,
    .legAddressDuplicate, .legCountExceeded, .legNestingExceeded, .legFanoutExceeded]

/-! ## A good image and its load (R192, R193) -/

/-- The kind of an image record and the number it is for: no two records of an image have both in common (R192). -/
def recordKey : ImageRecord → Nat × Nat
  | .settings _ => (0, 0)
  | .channel w => (1, w.channel)
  | .band w => (2, w.band)
  | .correction n _ => (3, n)
  | .slot w => (4, w.slot)
  | .alarm w => (5, w.line)
  | .element w => (6, w.number)
  | .attachment i _ => (7, i)

/-- A record passes the checks of a write of its table, or, an attachment, the value checks R192 names. -/
def recordPasses : ImageRecord → Prop
  | .settings w => settingsFault w = none
  | .channel w => w.channel ≤ 7 ∧ ∃ c, channelOf w = some c
  | .band w => w.band ≤ 31 ∧ ∃ b, bandOf w = some b
  | .correction n c => n ≤ 31 ∧ c.gain ≤ 65535 ∧ -1000 ≤ c.offset ∧ c.offset ≤ 1000
  | .slot w => slotShapeOk w = true ∧ w.slot ≤ 7 ∧ ∃ e, slotOf w = some e
  | .alarm w => w.line ≤ 3 ∧ ∃ e, alarmOf w = some e
  | .element w => elementOk w = true
  | .attachment i w => i ≤ 1023 ∧ w.station ≠ 0 ∧ 1 ≤ w.port ∧ w.port ≤ 8 ∧ w.drop ≤ 2000

/-- What the load of a good image makes of a state, management's queues apart: `n` holds the values of its settings record
(step 1); each channel, band, correction and alarm line record replaces its entry (step 2) and each report slot record is
written, the slots in ascending number (step 3); the elements (step 4), the map's state by their validation (step 5), the
attachments (step 6), the tracking table (step 7) and the image status (step 8) follow. Entries without a record stand. -/
def TablesLoaded (l : List ImageRecord) (n : Settings) (s t : State) : Prop :=
  let written := fun (i : Nat) => (imageSlots l).any (fun r => r.slot == i)
  let rising := s.tally.records.filter (fun p => p.2.state == .watch && decide (n.promote ≤ p.2.voters.length))
  ImageRecord.settings (rawSettings n) ∈ l ∧ t.mgmt.settings = n
    ∧ t.tally.agingDue =
        (if n.aging = s.mgmt.settings.aging then s.tally.agingDue else s.clocks.elapsed + n.aging * 1000)
    ∧ t.bands.intervalDue =
        (if n.mode = s.mgmt.settings.mode ∧ (n.mode = .manual ∨ n.interval = s.mgmt.settings.interval)
         then s.bands.intervalDue
         else if n.mode = .auto then some (s.clocks.elapsed + n.interval * 1000) else none)
    ∧ (∀ i c, ImageRecord.channel (rawChannel i c) ∈ l → t.echo.channels[i]? = some c)
    ∧ (∀ i, (∀ c, ImageRecord.channel (rawChannel i c) ∉ l) → t.echo.channels[i]? = s.echo.channels[i]?)
    ∧ (∀ i b, ImageRecord.band (rawBand i b) ∈ l → t.bands.bands[i]? = some { entry := b, live := resetLive })
    ∧ (∀ i, (∀ b, ImageRecord.band (rawBand i b) ∉ l) → t.bands.bands[i]? = s.bands.bands[i]?)
    ∧ (∀ i c, ImageRecord.correction i c ∈ l → t.sweep.corrections[i]? = some c)
    ∧ (∀ i, (∀ c, ImageRecord.correction i c ∉ l) → t.sweep.corrections[i]? = s.sweep.corrections[i]?)
    ∧ (∀ i e, ImageRecord.alarm (rawAlarm i e) ∈ l → t.reports.alarms[i]? = some e)
    ∧ (∀ i, (∀ e, ImageRecord.alarm (rawAlarm i e) ∉ l) → t.reports.alarms[i]? = s.reports.alarms[i]?)
    ∧ (∀ i e, ImageRecord.slot (rawSlot i e) ∈ l → t.reports.slots[i]? = some
        { entry := e
          due := if e.enabled = true ∧ e.trigger = .periodic then
              e.period.map (fun p => s.clocks.elapsed + p * 1000) else none })
    ∧ (∀ i, (∀ e, ImageRecord.slot (rawSlot i e) ∉ l) → t.reports.slots[i]? = s.reports.slots[i]?)
    ∧ (∃ new : List QueuedSlot,
        t.reports.queue =
          ((if n.promote = s.mgmt.settings.promote then s.reports
            else (List.replicate rising.length Event.newSuspect).foldl raiseEvent s.reports).queue.filter
              (fun q => !written q.slot)) ++ new
          ∧ new.Pairwise (fun a b => a.slot < b.slot)
          ∧ ∀ q, q ∈ new ↔ q.cause = .now ∧ q.count = 1
              ∧ ∃ e, ImageRecord.slot (rawSlot q.slot e) ∈ l ∧ e.enabled = true ∧ e.trigger = .now)
    ∧ t.tally.records =
        (if s.map.state = .ready then []
         else if n.promote = s.mgmt.settings.promote then s.tally.records
         else s.tally.records.map (fun p => (p.1,
           { p.2 with state := if n.promote ≤ p.2.voters.length then .suspect else .watch })))
    ∧ t.tally.overflow = s.tally.overflow ∧ t.tally.replacement = s.tally.replacement
    ∧ tableOk 512 t.map.elements = true
    ∧ (∀ i e, tableGet t.map.elements i = some e ↔ ImageRecord.element (rawElement i e) ∈ l)
    ∧ (t.map.elements = [] → t.map.state = .empty ∧ t.map.error = none)
    ∧ (t.map.elements ≠ [] → validate t.map.elements = none → t.map.state = .ready ∧ t.map.error = none)
    ∧ (∀ e, t.map.elements ≠ [] → validate t.map.elements = some e → t.map.state = .edit ∧ t.map.error = some e)
    ∧ t.map.closing = s.map.closing
    ∧ tableOk 1024 t.map.attachments = true
    ∧ (∀ i a, tableGet t.map.attachments i = some a ↔ ImageRecord.attachment i (rawAttach a) ∈ l
        ∧ a.validity =
            (if t.map.state = .empty ∨ (t.map.state = .ready ∧ attachmentFits t.map.elements a = false) then .stale
             else .valid))
    ∧ t.tlm = rebuild (if t.map.state = .ready then legAddresses t.map.elements else []) s.tlm
    ∧ { t.echo with channels := s.echo.channels } =
        (if s.map.state = .ready then
           { s.echo with analysis := s.echo.analysis.map (fun a => { a with mapLeft := true }) } else s.echo)
    ∧ t.bands.lastTransfer = s.bands.lastTransfer ∧ { t.sweep with corrections := s.sweep.corrections } = s.sweep
    ∧ t.image = { s.image with status := .loaded, load := none }
    ∧ t.clocks = s.clocks ∧ t.link = s.link ∧ t.search = s.search ∧ t.pending = s.pending

/-! ## A frame the part originates (R147, R148) -/

/-- A MGMT_RESP or REPORT frame as R148 lays it out: a valid header with its kind, its own length and a node address, then
tag, request kind, completion code, body length and body, zeros as the pad, and a trailer with which its CRC is good. It is
the shortest frame that holds its body. -/
def LaidOut (kind address : Byte) (tag : Nat) (reqKind code : Byte) (body : List Byte) (f : Frame) : Prop :=
  let n := body.length
  headerValid (f.take 6) = true ∧ headerKind f = kind ∧ headerLength f = f.length ∧ headerAddress f = address
    ∧ n + 16 ≤ f.length ∧ f.length < n + 32
    ∧ beNat (field f 6 2) = tag ∧ byteAt f 8 = reqKind ∧ byteAt f 9 = code ∧ beNat (field f 10 2) = n ∧ field f 12 n = body
    ∧ (∀ i, 12 + n ≤ i → i + 4 < f.length → byteAt f i = 0) ∧ crcGood f = true

/-! ## A sweep hand-off before its notice (R86, R90) -/

/-- The state after every enabled band of a hand-off has been classified and the band events raised, in ascending band
number; the notice to a running search comes after it (R91). -/
def classified (n : Nat) (levels : List Level) (s : State) : State :=
  let after := fun (x : BandSlot) =>
    liveAfter x.entry ((levels.drop x.entry.start).take (x.entry.stop + 1 - x.entry.start)) x.live
  let events := (List.range s.bands.bands.length).flatMap (fun i =>
    match s.bands.bands[i]? with
    | none => []
    | some x => if x.entry.enabled = true then bandEvent i n x.entry x.live (after x) else [])
  { s with
    bands := { s.bands with
      bands := s.bands.bands.map (fun x => if x.entry.enabled = true then { x with live := after x } else x) }
    reports := events.foldl raiseEvent s.reports }

/-! ## The removal of a voter (R57, R58) -/

/-- An attachment index taken out of every voter list that holds it: each such record keeps its other figures and gets the
state of R50, and each that rises to SUSPECT by it raises one NEW_SUSPECT. -/
def withoutVoter (i : Nat) (s : State) : State :=
  let left := fun (r : TallyRecord) => r.voters.filter (fun v => v != i)
  let suspect := fun (r : TallyRecord) => decide (s.mgmt.settings.promote ≤ (left r).length)
  let rising := s.tally.records.filter (fun p => decide (i ∈ p.2.voters) && p.2.state == .watch && suspect p.2)
  { s with
    tally := { s.tally with
      records := s.tally.records.map (fun p => (p.1,
        if i ∈ p.2.voters then
          { p.2 with voters := left p.2, state := if suspect p.2 = true then .suspect else .watch }
        else p.2)) }
    reports := (List.replicate rising.length Event.newSuspect).foldl raiseEvent s.reports }

/-! ## The end of a transaction (R108, R109, R111, R119) -/

/-- A tracking entry after a transaction to its leg has ended with a valid reply, or by TIMEOUT (`none`): a STEP's reply makes
STEP_SENT STEPPED, a RELEASE's reply makes any state PASS, a RELEASE's timeout makes RELEASE_SENT UNCONFIRMED (R108, R109);
a reply makes it REACHABLE and clears its timeouts, a timeout counts, the third in a row making it UNREACHABLE (R111). -/
def entryAfter (c : TlmCommand) (reply : Option Reply) (now : Word32) (e : TrackEntry) : TrackEntry :=
  let freed := c = .release ∧ reply ≠ none
  { e with
    state :=
      if freed then .pass
      else if c = .release ∧ e.state = .releaseSent then .unconfirmed
      else if c ≠ .release ∧ c ≠ .query ∧ reply ≠ none ∧ e.state = .stepSent then .stepped
      else e.state
    owner := if freed then none else e.owner
    deadline := if freed then none else e.deadline
    reachable := if reply = none then e.reachable && decide (e.timeouts + 1 < 3) else true
    timeouts := if reply = none then min 3 (e.timeouts + 1) else 0
    failures := if reply = none then min 65535 (e.failures + 1) else e.failures
    lastReply := if reply = none then e.lastReply else some now }

/-- The tracking entries after the end of a transaction: its own entry is changed, and a retained entry in PASS goes (R119). -/
def entriesAfter (tx : Transaction) (reply : Option Reply) (s : State) : Table TrackEntry :=
  (s.tlm.entries.map (fun p =>
      if p.1 = tx.address then (p.1, entryAfter tx.command reply s.clocks.plantTime p.2) else p)).filter
    (fun p => !(p.2.retained && p.2.state == .pass))

/-! ## The request that holds the head (R115, R167 to R170) -/

/-- How many operations are in progress for the request at the head: a close, a direct command waiting or on the line, a
load that a request waits for, a save. -/
def heldWork (s : State) : Nat :=
  (if s.map.closing then 1 else 0) + s.tlm.directQueue.length
    + (if s.tlm.transaction.any (fun x => x.requester == .direct) then 1 else 0)
    + (if s.image.load.any (fun x => x != .startUp) then 1 else 0)
    + (if s.image.saving.isSome then 1 else 0)

/-- One operation is in progress exactly while the head is executing (R168); then a request heads the queue and the
response queue has room for its response (R169); nothing executes during a start-up load (R170); every queued request's
body belongs to its kind code (R165). -/
def HeadLaw (s : State) : Prop :=
  heldWork s = (if s.mgmt.executing then 1 else 0)
    ∧ (s.mgmt.executing = true → s.mgmt.requests ≠ [] ∧ s.mgmt.responses.length < 4)
    ∧ (s.image.load = some .startUp → s.mgmt.executing = false)
    ∧ ∀ r ∈ s.mgmt.requests, r.body.fitsKind r.head.kind = true

/-! ## Queues (R27, R142, R167, R169, R182) -/

/-- The bounds of the queues and of the result log; an analysis in progress has its entry at the head (R28); a slot
stands in the report queue at most once (R182). -/
def QueueLaw (s : State) : Prop :=
  s.mgmt.requests.length ≤ 4 ∧ s.mgmt.responses.length ≤ 4 ∧ s.tlm.directQueue.length ≤ 1
    ∧ s.echo.queue.length ≤ 16 ∧ (s.echo.analysis.isSome = true → s.echo.queue ≠ [])
    ∧ s.search.log.length ≤ 8
    ∧ s.reports.slots.length = 8 ∧ (s.reports.queue.map (·.slot)).Nodup ∧ ∀ q ∈ s.reports.queue, q.slot < 8

/-- Until a counter saturates, ACCEPTED is the sum of the ten completion counters and the descriptor queue's occupancy (R33). -/
def IntakeLaw (s : State) : Prop :=
  let c := s.echo.counters
  c.accepted < 65535 → c.mapNotReady < 65535 → c.channelOff < 65535 → c.unknownStation < 65535 → c.suppressed < 65535 →
    c.eqInvalid < 65535 → c.clean < 65535 → c.placed < 65535 → c.drop < 65535 → c.span < 65535 → c.beyond < 65535 →
    c.accepted = c.mapNotReady + c.channelOff + c.unknownStation + c.suppressed + c.eqInvalid + c.clean + c.placed + c.drop
      + c.span + c.beyond + s.echo.queue.length

/-! ## The map (R1, R2, R4, R12, R16) -/

/-- The element table is in canonical form and every record passes the write-time conditions of R6. -/
def ElementLaw (s : State) : Prop :=
  tableOk 512 s.map.elements = true ∧ ∀ p ∈ s.map.elements, elementOk (rawElement p.1 p.2) = true

/-- READY holds a valid tree, EMPTY no element; a validation error stands only in EDIT (R2, R11); a close runs only in EDIT (R10). -/
def MapLaw (s : State) : Prop :=
  (s.map.state = .ready → s.map.elements ≠ [] ∧ validate s.map.elements = none)
    ∧ (s.map.state = .empty → s.map.elements = [])
    ∧ (s.map.error.isSome = true → s.map.state = .edit)
    ∧ (s.map.closing = true → s.map.state = .edit)

/-- Unless the map is READY the tally holds no record and the search is IDLE (R4); no search runs during a load (R194). -/
def ReadyLaw (s : State) : Prop :=
  (s.map.state ≠ .ready → s.tally.records = [] ∧ s.search.record = none)
    ∧ (s.image.load.isSome = true → s.search.record = none)

/-- The attachment table is in canonical form, no two entries hold one station id, and every entry has values of R16, but that
an image can bring in any element number (notes/assumptions/19.md). -/
def AttachmentLaw (s : State) : Prop :=
  tableOk 1024 s.map.attachments = true
    ∧ (s.map.attachments.map (fun p => p.2.station)).Nodup
    ∧ ∀ p ∈ s.map.attachments, attachImageOk (rawAttach p.2) = true

/-! ## The tracking table (R107, R111, R112) -/

/-- One entry of the tracking table: owner and lapse deadline present exactly while it is not PASS (R107), UNREACHABLE
exactly at three timeouts in a row (R111). -/
def entryLaw (e : TrackEntry) : Prop :=
  e.owner.isSome = e.busy ∧ e.deadline.isSome = e.busy ∧ e.timeouts ≤ 3 ∧ e.reachable = decide (e.timeouts < 3)

/-- At most one entry is not PASS (R112), in a table in canonical form whose entries keep `entryLaw`. -/
def TrackingLaw (s : State) : Prop :=
  tableOk 255 s.tlm.entries = true ∧ (s.tlm.entries.filter (fun p => p.2.busy)).length ≤ 1
    ∧ ∀ p ∈ s.tlm.entries, entryLaw p.2

/-! ## Band watch (R83, R85, R88) -/

/-- One band: its runs at most 15 and never both nonzero (R88), and CLEAR while it is disabled (R83). -/
def bandLaw (x : BandSlot) : Prop :=
  (x.live.hotRun = 0 ∨ x.live.coldRun = 0) ∧ x.live.hotRun ≤ 15 ∧ x.live.coldRun ≤ 15
    ∧ (x.entry.enabled = false → x.live.state = .clear)

/-- Every band keeps `bandLaw`. -/
def BandLaw (s : State) : Prop := ∀ x ∈ s.bands.bands, bandLaw x

/-! ## The tally (R49, R50) -/

/-- One record: at least one vote, at most eight voters, none twice, and the state that R50 gives it. -/
def recordLaw (promote : Nat) (r : TallyRecord) : Prop :=
  1 ≤ r.votes ∧ r.votes ≤ 65535 ∧ r.voters.length ≤ 8 ∧ r.voters.Nodup ∧ r.state = stateFor promote r.voters

/-- The record table is in canonical form, no key is held twice (R49), and every record keeps `recordLaw`. -/
def TallyLaw (s : State) : Prop :=
  tableOk 256 s.tally.records = true
    ∧ (s.tally.records.map (fun p => (p.2.element, p.2.place))).Nodup
    ∧ ∀ p ∈ s.tally.records, recordLaw s.mgmt.settings.promote p.2

/-! ## The tables (R23, R75, R81, R174, R180, R188) -/

/-- The settings record holds values of R174, and the node address is one of R171. -/
def SettingsLaw (s : State) : Prop :=
  settingsFault (rawSettings s.mgmt.settings) = none ∧ 1 ≤ s.mgmt.nodeAddress.toNat ∧ s.mgmt.nodeAddress.toNat ≤ 254

/-- Each table has its number of entries, and each entry is one that a write of that table accepts. -/
def TableLaw (s : State) : Prop :=
  (s.echo.channels.length = 8 ∧ ∀ c ∈ s.echo.channels, channelOf (rawChannel 0 c) = some c)
    ∧ (s.bands.bands.length = 32 ∧ ∀ x ∈ s.bands.bands, bandOf (rawBand 0 x.entry) = some x.entry)
    ∧ (s.sweep.corrections.length = 32 ∧ ∀ c ∈ s.sweep.corrections, correctionOk c = true)
    ∧ (s.reports.slots.length = 8
        ∧ ∀ x ∈ s.reports.slots, slotShapeOk (rawSlot 0 x.entry) = true ∧ slotOf (rawSlot 0 x.entry) = some x.entry)
    ∧ (s.reports.alarms.length = 4 ∧ ∀ e ∈ s.reports.alarms, alarmOf (rawAlarm 0 e) = some e)

/-! ## Results (R142) -/

/-- Each number is the one after its predecessor's, from 65535 to 1. -/
def consecutive : List Nat → Prop
  | [] => True
  | [_] => True
  | a :: b :: rest => b = numberAfter a ∧ consecutive (b :: rest)

/-- The numbers of the logged results, the running search's and the next one (R142). -/
def resultNumbers (s : State) : List Nat :=
  s.search.log.map (·.number) ++ (s.search.record.map (·.number)).toList ++ [s.search.nextNumber]

/-- The result numbers are consecutive (R142) and lie in 1..65535. -/
def ResultLaw (s : State) : Prop :=
  consecutive (resultNumbers s) ∧ ∀ n ∈ resultNumbers s, 1 ≤ n ∧ n ≤ 65535

/-! ## Receive lanes (R149 to R152) -/

/-- One lane: its run below the one that changes its lock state (R149, R150), a frame in reception only while LOCKED (R152). -/
def laneLaw (x : RxLane) : Prop :=
  match x.lock with
  | .hunting run expected => run ≤ 2 ∧ x.rx = none ∧ (expected.isSome = true ↔ 1 ≤ run)
  | .locked run _ => run ≤ 3 ∧ x.signal = true

/-- Both lanes keep `laneLaw`. -/
def LaneLaw (s : State) : Prop := laneLaw s.link.node ∧ laneLaw s.link.hub

/-! ## An event of a lane (R149, R150, R152) -/

/-- A lane after a frame has arrived whole (R152, R153): the frame counted, a bad CRC of any but FILL in both its counts. -/
def laneCounted (f : Frame) (x : RxLane) : RxLane :=
  let bad := headerKind f ≠ 0x00 ∧ crcGood f = false
  { x with
    rx := none
    rxFrames := min 65535 (x.rxFrames + 1)
    rxCrcErrors := if bad then min 65535 (x.rxCrcErrors + 1) else x.rxCrcErrors
    crc := if bad then { x.crc with interval := min 65535 (x.crc.interval + 1) } else x.crc }

/-- What an event of a lane at a byte moment makes of the link beside that lane and the two stores: the other lane, the
transmitters and their counters stand, the byte time is carried on, and the peak follows the occupancy (R157). -/
def LinkBeside (lane : Lane) (m : Nat) (l l' : Link) : Prop :=
  l'.lane (if lane = .nodeSide then .hubSide else .nodeSide) = l.lane (if lane = .nodeSide then .hubSide else .nodeSide)
    ∧ l'.byteTime = max l.byteTime m ∧ l'.hubTx = l.hubTx ∧ l'.nodeTx = l.nodeTx ∧ l'.crcDue = l.crcDue
    ∧ l'.responsesSent = l.responsesSent ∧ l'.reportsSent = l.reportsSent ∧ l'.peak = max l.peak (occupancy l')

/-! ## The stores (R155, R157, R160) -/

/-- One lane against the byte time: its next event does not lie in the past; a frame in reception has a valid header, began no
later than now, and the header after it is expected where it ends. -/
def laneTimes (now : Nat) (x : RxLane) : Prop :=
  (∀ d, laneDue x = some d → now ≤ d)
    ∧ ∀ r, x.rx = some r →
        headerValid r.header = true ∧ r.start ≤ now ∧ ∃ run, x.lock = .locked run (r.start + headerLength r.header)

/-- Bytes that the hub-side transmitter is still to send of a frame that is not from the pass-through buffer. -/
def insertionRest (l : Link) : Nat :=
  match l.hubTx.sending with
  | .through _ => 0
  | _ => l.hubTx.endsAt - l.byteTime

/-- Bytes that the node-side transmitter is still to send of a FILL of its own. -/
def fillRest (l : Link) : Nat :=
  match l.nodeTx.sending with
  | .fill _ => l.nodeTx.endsAt - l.byteTime
  | _ => 0

/-- No event of the link lies in the past; the pass-through buffer's occupancy, with what may still arrive while the
transmitter sends none of it, is at most 3631, the node-bound store's at most 575, and the peak occupancy lies between the
occupancy and 3631 (R157, R160). -/
def LinkLaw (s : State) : Prop :=
  s.link.byteTime ≤ s.link.hubTx.endsAt ∧ s.link.byteTime ≤ s.link.nodeTx.endsAt
    ∧ laneTimes s.link.byteTime s.link.node ∧ laneTimes s.link.byteTime s.link.hub
    ∧ occupancy s.link + insertionRest s.link ≤ 3631 ∧ storeOccupancy s.link + fillRest s.link ≤ 575
    ∧ occupancy s.link ≤ s.link.peak ∧ s.link.peak ≤ 3631

end Sys2Proof.Machine
end

