-- ==== Sys2Proof/Certificates/Slice0/Obligations.lean ====
section
/-! DEFINITION. The statements for the provers. Each names the command or the law it is about; a statement about a
command gives the whole next state, so that what the command leaves unchanged is said with what it changes. -/

open Sys2Proof Sys2Proof.Machine

/-! ## The queue of commands, reset, and the checks of every request -/

/-- A step takes the command at the front of the queue and runs it on the state with the queue's rest. On an empty queue
the part idles (the model's choice, notes/assumptions/11.md). No command stops the part (the model's deduction,
notes/assumptions/1.md). -/
def Obligations.StepRunsFront : Prop :=
  (∀ (c : Instr) (rest : List Instr) (s : State), s.pending = c :: rest → step s = exec c { s with pending := rest })
    ∧ (∀ s : State, s.pending = [] → step s = .next s)
    ∧ ∀ (c : Instr) (s : State), ∃ t, exec c s = .next t

/-- Every law of Safety.lean holds in every state a power-on or a pin reset takes up, State.reset among them. -/
def Obligations.ResetHasEveryLaw : Prop :=
  ∀ (strap : Byte) (flash : Flash) (pending : List Instr),
    let s := State.powerOn strap flash pending
    HeadLaw s ∧ QueueLaw s ∧ IntakeLaw s ∧ ElementLaw s ∧ MapLaw s ∧ ReadyLaw s ∧ AttachmentLaw s ∧ TrackingLaw s ∧ BandLaw s
      ∧ TallyLaw s ∧ SettingsLaw s ∧ TableLaw s ∧ ResultLaw s ∧ LaneLaw s ∧ LinkLaw s

/-- Power-on and pin reset take up one state, given here field by field, in which the flash alone keeps what it held; State.reset
is that state. The tables' reset values (R23, R75, R81, R174, R180, R188) stand in it, and the resets of the requests name the
same ones. The model's choices in it: the signal present on both lanes, and in State.reset the strap and the flash
(notes/assumptions/3.md), the moments from which its counts of time start (notes/assumptions/4.md), the first FILL of each
transmitter (notes/assumptions/13.md), and a line on which nothing has been sent (notes/assumptions/16.md). -/
def Obligations.PowerOnAndPinReset : Prop :=
  (∀ (strap : Byte) (s : State),
    let address : Byte := if strap = 0 then 1 else if strap = 255 then 254 else strap
    let lane : RxLane :=
      { lock := .hunting 0 none, cursor := 0, signal := true, rx := none
        crc := { interval := 0, lastInterval := 0, degraded := false }
        rxFrames := 0, rxCrcErrors := 0, headerErrors := 0, lockLosses := 0 }
    let band : BandSlot :=
      { entry := { enabled := false, start := 0, stop := 0, floor := 0, declareMargin := 0, clearMargin := 0, minBins := 1,
                   declareCount := 1, clearCount := 1, mode := .declareOnly }
        live := { state := .clear, hotRun := 0, coldRun := 0, burst := 0, longest := 0, hotCount := 0, lastCount := 0,
                  lastLongest := 0, declares := 0, peak := none } }
    let slot : ReportSlot :=
      { entry := { enabled := false, repeats := false, kind := .bandSummary, trigger := .now, period := none, events := none,
                   bandFilter := none }
        due := none }
    let t : State :=
      { clocks := { plantTime := 0, elapsed := 0, plantDue := 1000 }
        link :=
          { node := lane, hub := lane, byteTime := 0, through := [], store := []
            hubTx := { sending := .fill address, endsAt := 16 }, nodeTx := { sending := .fill address, endsAt := 16 }
            peak := 0, requestsTaken := 0, responsesSent := 0, reportsSent := 0, crcDue := 1000 }
        sweep :=
          { assembly := .idle, corrections := List.replicate 32 { gain := 32768, offset := 0 }, complete := 0
            incomplete := 0, orphan := 0, malformed := 0, clamped := 0, lastDiscard := none, latest := none }
        bands := { bands := List.replicate 32 band, lastTransfer := none, intervalDue := some 60000 }
        map := { state := .empty, elements := [], error := none, closing := false, attachments := [] }
        echo :=
          { channels := List.replicate 8 { enabled := false, rate := .r512, threshold := 207 }, queue := [], analysis := none
            counters := { accepted := 0, notAnalysed := 0, malformed := 0, mapNotReady := 0, channelOff := 0,
                          unknownStation := 0, suppressed := 0, eqInvalid := 0, clean := 0, placed := 0, drop := 0, span := 0,
                          beyond := 0 }
            latest := none }
        tally := { records := [], overflow := 0, replacement := 0, agingDue := 900000 }
        tlm :=
          { entries := [], transaction := none, searchRequest := none, directQueue := [], assembling := [], line := []
            sent := 0, timeout := 0, ignored := 0 }
        search := { record := none, log := [], nextNumber := 1 }
        mgmt :=
          { requests := [], executing := false, responses := [], dropped := 0, strap := strap, nodeAddress := address
            addressSource := .strap
            settings := { window := 60, promote := 3, aging := 900, mFull := 20, mLow := 15, watchdog := 100, mode := .auto,
                          interval := 60, crcThreshold := 16 } }
        reports :=
          { slots := List.replicate 8 slot, queue := []
            alarms := List.replicate 4 { source := .fixedLow, polarity := .activeHigh } }
        image := { status := .invalid, load := some .startUp, saving := none, flash := s.image.flash }
        pending := s.pending }
    exec (.powerOn strap) s = .next t ∧ exec (.pinReset strap) s = .next t
      ∧ State.powerOn strap s.image.flash s.pending = t
      ∧ powerOnEcho = t.echo ∧ zeroCounters = t.echo.counters ∧ powerOnSweep = t.sweep ∧ resetBands = t.bands.bands
      ∧ resetLive = band.live ∧ powerOnReports = t.reports ∧ resetSettings = t.mgmt.settings)
    ∧ State.reset = State.powerOn 0 { format := 0, length := 0, crc := 0, records := [] } []

/-- Every request row: while its request may not begin nothing changes (R168); a request that begins and fails a check of
R170 is answered with that check's code and changes nothing else; so is one whose body does not hold exactly its fields,
except that MAP_WRITE, MAP_DELETE and ATTACH_SET look at the map state first (the order is the model's choice,
notes/assumptions/10.md); so is one that names nothing known (the forms of R22 and R63 by the model's choice,
notes/assumptions/9.md). The kind codes are R165's 26 and one that is none of them for DIRECT_STEP, to which R165 gives no code
(the model's choice, notes/assumptions/5.md); the code of each request's body. Every other row but the two resets and the start of a transaction waits while a request may begin or a
transaction may start on a free line: its command then changes nothing (the model's deduction from R113 and R168,
notes/assumptions/28.md). -/
def Obligations.RequestChecks : Prop :=
  (∀ (c : Instr) (r : Request) (s : State), c.request = some r →
    (¬ MayBegin r s → exec c s = .next s)
      ∧ (MayBegin r s → ∀ code,
          (if 16 * r.head.lenCode < r.head.bodyLen + 16 ∨ 544 < r.head.bodyLen then some Completion.badRequest
           else if r.head.kind ∉ knownKinds then some .badRequest
           else if r.head.address = 255 ∧ r.head.kind ≠ 0x01 then some .badRequest
           else if s.image.load.isSome = true ∧ r.head.kind ≠ 0x01 then some .busy
           else none) = some code →
          exec c s = .next (replied r code .empty s))
      ∧ (Executes r s → misfits r = true →
          exec c s = .next (replied r
            (match r.body with
             | .mapWrite _ => if s.map.state = .edit then .badRequest else .mapState
             | .mapDelete _ => if s.map.state = .edit then .badRequest else .mapState
             | .attachSet _ => if s.map.state = .ready then .badRequest else .mapState
             | _ => .badRequest) .empty s)))
    ∧ (∀ (h : ReqHead) (s : State), MayBegin ⟨h, .unknownRequest .kindCode⟩ s → h.kind ∉ knownKinds →
      exec (.unknownRequest h .kindCode) s = .next (replied ⟨h, .unknownRequest .kindCode⟩ .badRequest .empty s))
    ∧ (∀ (h : ReqHead) (what : Unnamed) (s : State), Executes ⟨h, .unknownRequest what⟩ s →
      exec (.unknownRequest h what) s = .next
        (replied ⟨h, .unknownRequest what⟩ (if what = .tallyScope then .badValue else .badRequest) .empty s))
    ∧ (∀ (c : Instr) (s : State), c.request = none → (∀ strap, c ≠ .powerOn strap ∧ c ≠ .pinReset strap) →
      c ≠ .tlmTransactionStart → ¬ Quiet s → exec c s = .next s)
    ∧ (let listed : List Byte :=
        [0x01, 0x02, 0x03, 0x10, 0x11, 0x12, 0x13, 0x14, 0x15, 0x18, 0x19, 0x1A, 0x20, 0x21, 0x28, 0x29, 0x2A, 0x31, 0x32,
          0x38, 0x40, 0x41, 0x48, 0x49, 0x50, 0x51]
      directStepKind ∉ listed ∧ ∀ k, k ∈ knownKinds ↔ k ∈ listed ∨ k = directStepKind)
    ∧ (∀ (b : ReqBody) (k : Byte), b.fitsKind k = true ↔ b.kind = some k ∨ (b.kind = none ∧ k ∉ knownKinds))
    ∧ ∀ b : ReqBody, b.kind =
        match b with
        | .statusRead _ => some 0x01
        | .unknownRequest .kindCode => none
        | .unknownRequest .readSelector => some 0x02
        | .unknownRequest .writeSelector => some 0x03
        | .unknownRequest .attachForm => some 0x1A
        | .unknownRequest .tallyForm => some 0x20
        | .unknownRequest .tallyScope => some 0x21
        | .unknownRequest .resultForm => some 0x2A
        | .tableReadChannel _ => some 0x02
        | .tableWriteChannel _ => some 0x03
        | .tableReadBand _ => some 0x02
        | .tableWriteBand _ => some 0x03
        | .tableReadCorrection _ => some 0x02
        | .tableWriteCorrection _ => some 0x03
        | .tableReadSettings _ => some 0x02
        | .tableWriteSettings _ => some 0x03
        | .tableReadReportSlot _ => some 0x02
        | .tableWriteReportSlot _ => some 0x03
        | .tableReadAlarmLine _ => some 0x02
        | .tableWriteAlarmLine _ => some 0x03
        | .mapOpen => some 0x10
        | .mapWrite _ => some 0x11
        | .mapDelete _ => some 0x12
        | .mapClear => some 0x13
        | .mapClose => some 0x14
        | .mapRead _ => some 0x15
        | .attachSet _ => some 0x18
        | .attachDelete _ => some 0x19
        | .attachReadByStation _ => some 0x1A
        | .attachReadByRange _ => some 0x1A
        | .tallyReadBySlot _ => some 0x20
        | .tallyReadRanked _ => some 0x20
        | .tallyReadByKey _ => some 0x20
        | .tallyClearAll _ => some 0x21
        | .tallyClearFlags _ => some 0x21
        | .searchStart _ => some 0x28
        | .searchAbort => some 0x29
        | .resultReadLatest _ => some 0x2A
        | .resultReadByNumber _ => some 0x2A
        | .directStep _ => some directStepKind
        | .directRelease _ => some 0x31
        | .directQuery _ => some 0x32
        | .counterSnapshot => some 0x38
        | .addressSet _ => some 0x40
        | .timeSet _ => some 0x41
        | .imageLoad => some 0x48
        | .imageSave => some 0x49
        | .resetEngines => some 0x50
        | .resetAll => some 0x51

/-! ## Requests that read -/

/-- STATUS_READ (R176) by what its body selects, and the six TABLE_READ rows (R24, R78, R84, R174, R181, R188): each answers
with the contents named and changes nothing else. The contents of the nine groups (R33, R63, R80, R97, R121, R144, R163,
R190), of a report slot as the reads give it, queued or not and with the whole seconds, rounded up, to its timer's expiry
(R181), and of an alarm line with the level it drives (R188). -/
def Obligations.StatusAndTableReads : Prop :=
  (∀ (h : ReqHead) (sel : StatusSelector) (s : State), Executes ⟨h, .statusRead sel⟩ s →
    exec (.statusRead h sel) s = .next
      (match sel with
       | .common => replied ⟨h, .statusRead sel⟩ .ok (.status (statusCommon s) none) s
       | .group g => replied ⟨h, .statusRead sel⟩ .ok (.status (statusCommon s) (some (groupView s g))) s
       | .unknown => replied ⟨h, .statusRead sel⟩ .badValue .empty s
       | .misfit => replied ⟨h, .statusRead sel⟩ .badRequest .empty s)
    ∧ statusCommon s =
        { partCode := 0x0640, revision := 1, nodeAddress := s.mgmt.nodeAddress, addressSource := s.mgmt.addressSource,
          strap := s.mgmt.strap, plantTime := s.clocks.plantTime, imageStatus := s.image.status,
          loading := s.image.load.isSome, saving := s.image.saving.isSome, mapState := s.map.state,
          searchState := s.search.record.map (·.state), requests := s.mgmt.requests.length,
          responses := s.mgmt.responses.length, dropped := s.mgmt.dropped })
    ∧ (∀ (h : ReqHead) (s : State), Executes ⟨h, .tableReadChannel true⟩ s →
      exec (.tableReadChannel h true) s = .next (replied ⟨h, .tableReadChannel true⟩ .ok (.channels s.echo.channels) s))
    ∧ (∀ (h : ReqHead) (s : State), Executes ⟨h, .tableReadCorrection true⟩ s →
      exec (.tableReadCorrection h true) s
        = .next (replied ⟨h, .tableReadCorrection true⟩ .ok (.corrections s.sweep.corrections) s))
    ∧ (∀ (h : ReqHead) (s : State), Executes ⟨h, .tableReadSettings true⟩ s →
      exec (.tableReadSettings h true) s = .next (replied ⟨h, .tableReadSettings true⟩ .ok (.settings s.mgmt.settings) s))
    ∧ (∀ (h : ReqHead) (s : State), Executes ⟨h, .tableReadReportSlot true⟩ s →
      exec (.tableReadReportSlot h true) s = .next (replied ⟨h, .tableReadReportSlot true⟩ .ok (.slots (slotViews s)) s))
    ∧ (∀ (h : ReqHead) (s : State), Executes ⟨h, .tableReadAlarmLine true⟩ s →
      exec (.tableReadAlarmLine h true) s = .next (replied ⟨h, .tableReadAlarmLine true⟩ .ok (.alarms (alarmViews s)) s))
    ∧ (∀ (h : ReqHead) (q : StartCount) (s : State), Executes ⟨h, .tableReadBand (some q)⟩ s →
      exec (.tableReadBand h (some q)) s = .next
        (if q.start ≤ 31 ∧ 1 ≤ q.count ∧ q.count ≤ 8 then
           replied ⟨h, .tableReadBand (some q)⟩ .ok (.bands ((s.bands.bands.drop q.start).take q.count)) s
         else replied ⟨h, .tableReadBand (some q)⟩ .badIndex .empty s))
    ∧ ∀ s : State,
        let secondsTo := fun (due : Option Nat) => due.map (fun d => (d - s.clocks.elapsed + 999) / 1000)
        let lane := fun (x : RxLane) => ({
          locked := (match x.lock with
            | .locked _ _ => true
            | .hunting _ _ => false)
          degraded := x.crc.degraded, interval := x.crc.interval, lastInterval := x.crc.lastInterval, rxFrames := x.rxFrames,
          rxCrcErrors := x.rxCrcErrors, headerErrors := x.headerErrors, lockLosses := x.lockLosses } : LaneView)
        groupView s .map = .map s.map.state s.map.error s.map.elements.length s.map.attachments.length
            (s.map.attachments.filter (fun p => p.2.validity == .stale)).length
          ∧ groupView s .echo = .echo s.echo.counters s.echo.queue.length s.echo.latest
          ∧ groupView s .tally = .tally
              { records := s.tally.records.length
                suspects := (s.tally.records.filter (fun p => p.2.state == .suspect)).length
                coincident := (s.tally.records.filter (fun p => p.2.coincident)).length
                promote := s.mgmt.settings.promote, overflow := s.tally.overflow, replacement := s.tally.replacement }
          ∧ groupView s .sweep = .sweep
              (match s.sweep.assembly with
               | .idle => none
               | .assembling n next _ => some (n, next))
              s.sweep.lastDiscard s.sweep.latest s.sweep.complete s.sweep.incomplete s.sweep.orphan s.sweep.malformed
              s.sweep.clamped
          ∧ (∃ declared : List Nat,
              groupView s .bands = .bands declared.length declared s.mgmt.settings.mode s.mgmt.settings.interval
                s.bands.lastTransfer
                ∧ declared.Pairwise (· < ·)
                ∧ ∀ n, n ∈ declared ↔ ∃ x, s.bands.bands[n]? = some x ∧ x.live.state = .declared)
          ∧ groupView s .legs = .legs
              { entries := s.tlm.entries.length
                busy := (s.tlm.entries.find? (fun p => p.2.state != .pass)).map (fun p =>
                  { address := p.1, state := p.2.state, owner := p.2.owner, seconds := secondsTo p.2.deadline })
                unreachable := (s.tlm.entries.filter (fun p => !p.2.reachable)).length
                directQueue := s.tlm.directQueue.length
                transaction := s.tlm.transaction.map (fun t =>
                  { address := t.address, command := t.command, requester := t.requester })
                sent := s.tlm.sent, timeout := s.tlm.timeout, ignored := s.tlm.ignored
                watchdog := s.mgmt.settings.watchdog }
          ∧ groupView s .search = .search
              { running := s.search.record.map (fun r =>
                  { state := r.state, number := r.number, band := r.band, level := r.level, k := r.k, sk := r.sk, hold := r.hold,
                    head := r.head, leg := (r.legs[r.current]?).map (fun l => (l.element, l.address))
                    collected := r.collected, baseline := r.baseline, seconds := secondsTo r.measureDeadline
                    cause := if r.state = .ending then r.cause else none, path := r.path, measured := r.measured })
                results := s.search.log.length
                newest := s.search.log.getLast?.map (·.number) }
          ∧ groupView s .link = .link
              { node := lane s.link.node, hub := lane s.link.hub, requestsTaken := s.link.requestsTaken
                responsesSent := s.link.responsesSent, reportsSent := s.link.reportsSent, occupancy := occupancy s.link
                peak := s.link.peak, store := storeOccupancy s.link, crcThreshold := s.mgmt.settings.crcThreshold }
          ∧ groupView s .reports = .reports
              ((slotViews s).map (fun v =>
                { enabled := v.entry.enabled, repeats := v.entry.repeats, kind := v.entry.kind, trigger := v.entry.trigger
                  queued := v.queued, seconds := v.seconds }))
              s.reports.queue (alarmViews s)
          ∧ (slotViews s).length = s.reports.slots.length
          ∧ (∀ i x, s.reports.slots[i]? = some x → (slotViews s)[i]? = some
              ({ entry := x.entry, queued := s.reports.queue.any (fun q => q.slot == i), seconds := secondsTo x.due } : SlotView))
          ∧ alarmViews s = s.reports.alarms.map (fun e => { entry := e, high := lineHigh s e })

/-- MAP_READ (R15) and ATTACH_READ in its two forms (R22). -/
def Obligations.MapAndAttachmentReads : Prop :=
  (∀ (h : ReqHead) (q : StartCount) (s : State), Executes ⟨h, .mapRead (some q)⟩ s →
      exec (.mapRead h (some q)) s = .next
        (if q.start ≤ 511 ∧ 1 ≤ q.count ∧ q.count ≤ 32 then
           let records := (s.map.elements.filter (fun p => decide (q.start ≤ p.1))).take q.count
           let cont := if records.length = q.count then
               (records.getLast?.map (fun p => p.1 + 1)).filter (fun n => decide (n ≤ 511)) else none
           replied ⟨h, .mapRead (some q)⟩ .ok
             (.mapRecords s.map.state s.map.error s.map.elements.length records cont) s
         else replied ⟨h, .mapRead (some q)⟩ .badValue .empty s))
    ∧ (∀ (h : ReqHead) (station : Word32) (s : State), Executes ⟨h, .attachReadByStation (some station)⟩ s →
      exec (.attachReadByStation h (some station)) s = .next
        (match s.map.attachments.find? (fun p => p.2.station == station) with
         | some (i, a) =>
           replied ⟨h, .attachReadByStation (some station)⟩ .ok (.attachEntry i a.element a.port a.drop a.validity) s
         | none => replied ⟨h, .attachReadByStation (some station)⟩ .notFound .empty s))
    ∧ (∀ (h : ReqHead) (q : StartCount) (s : State), Executes ⟨h, .attachReadByRange (some q)⟩ s →
      exec (.attachReadByRange h (some q)) s = .next
        (if q.start ≤ 1023 ∧ 1 ≤ q.count ∧ q.count ≤ 32 then
           let entries := (s.map.attachments.filter (fun p => decide (q.start ≤ p.1))).take q.count
           let cont := if entries.length = q.count then
               (entries.getLast?.map (fun p => p.1 + 1)).filter (fun n => decide (n ≤ 1023)) else none
           replied ⟨h, .attachReadByRange (some q)⟩ .ok
             (.attachEntries s.map.attachments.length
               (s.map.attachments.filter (fun p => p.2.validity == .stale)).length entries cont) s
         else replied ⟨h, .attachReadByRange (some q)⟩ .badValue .empty s))

/-- TALLY_READ in its three forms (R63): each answers with the tally summary first and changes nothing else. The rank order
(R61) holds every record once, by votes, the greatest first, then element number, the lowest first, then place in the order
AT, SPAN, DROP.
That a key out of range is refused with BAD_VALUE although no record holds it is the model's choice
(notes/assumptions/30.md). -/
def Obligations.TallyReads : Prop :=
  (∀ (h : ReqHead) (q : StartCount) (s : State), Executes ⟨h, .tallyReadBySlot (some q)⟩ s →
      exec (.tallyReadBySlot h (some q)) s = .next
        (if q.start ≤ 255 ∧ 1 ≤ q.count ∧ q.count ≤ 8 then
           let records := (s.tally.records.filter (fun p => decide (q.start ≤ p.1))).take q.count
           let cont := if records.length = q.count then
               (records.getLast?.map (fun p => p.1 + 1)).filter (fun n => decide (n ≤ 255)) else none
           replied ⟨h, .tallyReadBySlot (some q)⟩ .ok (.tallySlots (tallySummary s) records cont) s
         else replied ⟨h, .tallyReadBySlot (some q)⟩ .badValue .empty s))
    ∧ (∀ (h : ReqHead) (q : StartCount) (s : State), Executes ⟨h, .tallyReadRanked (some q)⟩ s →
      exec (.tallyReadRanked h (some q)) s = .next
        (if 1 ≤ q.start ∧ q.start ≤ 256 ∧ 1 ≤ q.count ∧ q.count ≤ 8 then
           replied ⟨h, .tallyReadRanked (some q)⟩ .ok
             (.tallyRanked (tallySummary s) (((ranked s.tally.records).drop (q.start - 1)).take q.count)) s
         else replied ⟨h, .tallyReadRanked (some q)⟩ .badValue .empty s))
    ∧ (∀ (h : ReqHead) (e : Nat) (p : Place) (s : State), Executes ⟨h, .tallyReadByKey (some (e, some p))⟩ s →
      exec (.tallyReadByKey h (some (e, some p))) s = .next
        (if e ≤ 511 then
           match s.tally.records.find? (fun x => x.2.element == e && x.2.place == p) with
           | some (slot, r) => replied ⟨h, .tallyReadByKey (some (e, some p))⟩ .ok (.tallyRecord (tallySummary s) slot r) s
           | none => replied ⟨h, .tallyReadByKey (some (e, some p))⟩ .notFound .empty s
         else replied ⟨h, .tallyReadByKey (some (e, some p))⟩ .badValue .empty s))
    ∧ (∀ (h : ReqHead) (e : Nat) (s : State), Executes ⟨h, .tallyReadByKey (some (e, none))⟩ s →
      exec (.tallyReadByKey h (some (e, none))) s = .next
        (replied ⟨h, .tallyReadByKey (some (e, none))⟩ .badValue .empty s))
    ∧ (∀ s : State, tallySummary s =
        { records := s.tally.records.length
          suspects := (s.tally.records.filter (fun p => p.2.state == .suspect)).length
          coincident := (s.tally.records.filter (fun p => p.2.coincident)).length
          promote := s.mgmt.settings.promote, overflow := s.tally.overflow, replacement := s.tally.replacement })
    ∧ ∀ records : Table TallyRecord,
        let placeRank := fun (p : Place) =>
          match p with
          | .at => 0
          | .span => 1
          | .drop => 2
        (ranked records).Perm records
          ∧ (ranked records).Pairwise (fun a b =>
              b.2.votes < a.2.votes
                ∨ (a.2.votes = b.2.votes
                    ∧ (a.2.element < b.2.element
                        ∨ (a.2.element = b.2.element ∧ placeRank a.2.place ≤ placeRank b.2.place))))

/-- RESULT_READ in its two forms, and a body that names neither (R143). R143 refuses the number 0; that a number above 65535
is refused with it is the model's choice (notes/assumptions/25.md). That a number out of range is
refused with BAD_VALUE also where no result has it, on an empty log too, is its choice (notes/assumptions/30.md). -/
def Obligations.ResultReads : Prop :=
  (∀ (h : ReqHead) (s : State), Executes ⟨h, .resultReadLatest true⟩ s →
      exec (.resultReadLatest h true) s = .next
        (match s.search.log.getLast? with
         | some x =>
           replied ⟨h, .resultReadLatest true⟩ .ok
             (.result s.search.log.length ((s.search.log.head?.map (·.number)).getD 0) x.number x) s
         | none => replied ⟨h, .resultReadLatest true⟩ .notFound .empty s))
    ∧ (∀ (h : ReqHead) (n : Nat) (s : State), Executes ⟨h, .resultReadByNumber (some n)⟩ s →
      exec (.resultReadByNumber h (some n)) s = .next
        (if 1 ≤ n ∧ n ≤ 65535 then
           match s.search.log.find? (fun x => x.number == n) with
           | some x =>
             replied ⟨h, .resultReadByNumber (some n)⟩ .ok
               (.result s.search.log.length ((s.search.log.head?.map (·.number)).getD 0)
                 ((s.search.log.getLast?.map (·.number)).getD 0) x) s
           | none => replied ⟨h, .resultReadByNumber (some n)⟩ .notFound .empty s
         else replied ⟨h, .resultReadByNumber (some n)⟩ .badValue .empty s))
    ∧ (∀ (h : ReqHead) (s : State), Executes ⟨h, .unknownRequest .resultForm⟩ s →
      exec (.unknownRequest h .resultForm) s = .next (replied ⟨h, .unknownRequest .resultForm⟩ .badRequest .empty s))

/-! ## Table writes -/

/-- TABLE_WRITE to the channel table (R24) and to the alarm line table (R188): the conditions, the values each accepts, the
level a line drives and the nine conditions it follows (R189). R24 and R188 give their refusals of the number and of the values
no order: that the channel number and the line number are looked at first is the model's choice (notes/assumptions/24.md),
and so is the refusal of an enabled field of neither
value (notes/assumptions/22.md) and of a threshold above 65535 (notes/assumptions/25.md). -/
def Obligations.ChannelAndAlarmWrites : Prop :=
  (∀ (h : ReqHead) (w : RawChannel) (s : State), Executes ⟨h, .tableWriteChannel (some w)⟩ s →
      exec (.tableWriteChannel h (some w)) s = .next
        (if 7 < w.channel then replied ⟨h, .tableWriteChannel (some w)⟩ .badIndex .empty s
         else
           match channelOf w with
           | none => replied ⟨h, .tableWriteChannel (some w)⟩ .badValue .empty s
           | some c =>
             { s with
               echo := { s.echo with channels := s.echo.channels.set w.channel c }
               mgmt := answered ⟨h, .tableWriteChannel (some w)⟩ .ok .empty s.mgmt }))
    ∧ (∀ (w : RawChannel) (c : Channel), channelOf w = some c ↔
        w.enabled = some c.enabled ∧ w.rate = some c.rate ∧ w.threshold = c.threshold ∧ 1 ≤ c.threshold ∧ c.threshold ≤ 65535)
    ∧ (∀ (h : ReqHead) (w : RawAlarm) (s : State), Executes ⟨h, .tableWriteAlarmLine (some w)⟩ s →
      exec (.tableWriteAlarmLine h (some w)) s = .next
        (if 3 < w.line then replied ⟨h, .tableWriteAlarmLine (some w)⟩ .badIndex .empty s
         else
           match alarmOf w with
           | none => replied ⟨h, .tableWriteAlarmLine (some w)⟩ .badValue .empty s
           | some e =>
             { s with
               reports := { s.reports with alarms := s.reports.alarms.set w.line e }
               mgmt := answered ⟨h, .tableWriteAlarmLine (some w)⟩ .ok .empty s.mgmt }))
    ∧ (∀ (w : RawAlarm) (e : AlarmEntry), alarmOf w = some e ↔
        w.source = some e.source ∧ w.polarity = some e.polarity ∧ ∀ n, e.source = .bandDeclared n → n ≤ 31)
    ∧ (∀ (s : State) (src : AlarmSource) (pol : Polarity), lineHigh s { source := src, polarity := pol } =
        match src, pol with
        | .fixedLow, _ => false
        | .fixedHigh, _ => true
        | _, .activeHigh => alarmCondition s src
        | _, .activeLow => !alarmCondition s src)
    ∧ ∀ (s : State) (src : AlarmSource), alarmCondition s src = true ↔
        match src with
        | .fixedLow => False
        | .fixedHigh => True
        | .anyBandDeclared => ∃ x ∈ s.bands.bands, x.live.state = .declared
        | .bandDeclared n => ∃ x, s.bands.bands[n]? = some x ∧ x.live.state = .declared
        | .suspectPresent => ∃ p ∈ s.tally.records, p.2.state = .suspect
        | .searchActive => s.search.record ≠ none
        | .legStepped => ∃ p ∈ s.tlm.entries, p.2.state ≠ .pass
        | .linkDegraded => s.link.node.crc.degraded = true ∨ s.link.hub.crc.degraded = true
        | .linkDown => ∃ lane run expected, (s.link.lane lane).lock = .hunting run expected

/-- TABLE_WRITE to the band table (R82, R83): the conditions in their order, the reset live state, and the ranges of R81. -/
def Obligations.BandWrite : Prop :=
  (∀ (h : ReqHead) (w : RawBand) (s : State), Executes ⟨h, .tableWriteBand (some w)⟩ s →
    exec (.tableWriteBand h (some w)) s = .next
      (if 31 < w.band then replied ⟨h, .tableWriteBand (some w)⟩ .badIndex .empty s
       else
         match bandOf w with
         | none => replied ⟨h, .tableWriteBand (some w)⟩ .badValue .empty s
         | some b =>
           if (s.search.record.map (·.band)) = some w.band then
             replied ⟨h, .tableWriteBand (some w)⟩ .searchActive .empty s
           else
             { s with
               bands := { s.bands with
                 bands := s.bands.bands.set w.band
                   { entry := b
                     live := { state := .clear, hotRun := 0, coldRun := 0, burst := 0, longest := 0, hotCount := 0,
                               lastCount := 0, lastLongest := 0, declares := 0, peak := none } } }
               mgmt := answered ⟨h, .tableWriteBand (some w)⟩ .ok .empty s.mgmt }))
    ∧ ∀ (w : RawBand) (b : Band), bandOf w = some b ↔
        w.enabled = some b.enabled ∧ w.mode = some b.mode ∧ w.start = b.start ∧ w.stop = b.stop ∧ w.floor = b.floor
          ∧ w.declareMargin = b.declareMargin ∧ w.clearMargin = b.clearMargin ∧ w.minBins = b.minBins
          ∧ w.declareCount = b.declareCount ∧ w.clearCount = b.clearCount
          ∧ b.start ≤ b.stop ∧ b.stop ≤ 1023 ∧ -1000 ≤ b.floor ∧ b.floor ≤ 1000
          ∧ 0 ≤ b.clearMargin ∧ b.clearMargin ≤ b.declareMargin ∧ b.declareMargin ≤ 600
          ∧ 1 ≤ b.minBins ∧ b.minBins ≤ 64 ∧ b.minBins ≤ b.stop - b.start + 1
          ∧ 1 ≤ b.declareCount ∧ b.declareCount ≤ 15 ∧ 1 ≤ b.clearCount ∧ b.clearCount ≤ 15

/-- TABLE_WRITE to the correction table (R78): the conditions in their order; every named entry replaced together. R78's
third condition names the offset: that a gain above 65535 is refused with it is the model's choice
(notes/assumptions/25.md). -/
def Obligations.CorrectionWrite : Prop :=
  ∀ (h : ReqHead) (q : StartCount) (pairs : List Correction) (s : State),
    Executes ⟨h, .tableWriteCorrection (some (q, pairs))⟩ s →
    exec (.tableWriteCorrection h (some (q, pairs))) s = .next
      (if pairs.length ≠ q.count then replied ⟨h, .tableWriteCorrection (some (q, pairs))⟩ .badRequest .empty s
       else if 31 < q.start ∨ q.count = 0 ∨ 32 < q.count ∨ 31 < q.start + q.count - 1 then
         replied ⟨h, .tableWriteCorrection (some (q, pairs))⟩ .badIndex .empty s
       else if ∃ c ∈ pairs, 65535 < c.gain ∨ c.offset < -1000 ∨ 1000 < c.offset then
         replied ⟨h, .tableWriteCorrection (some (q, pairs))⟩ .badValue .empty s
       else if s.search.record ≠ none then replied ⟨h, .tableWriteCorrection (some (q, pairs))⟩ .searchActive .empty s
       else
         { s with
           sweep := { s.sweep with corrections :=
             s.sweep.corrections.take q.start ++ pairs ++ s.sweep.corrections.drop (q.start + q.count) }
           mgmt := answered ⟨h, .tableWriteCorrection (some (q, pairs))⟩ .ok .empty s.mgmt })

/-- TABLE_WRITE to the settings table (R174): refused by the first field out of its range, in the table's order; accepted,
it replaces all nine fields, restarts the aging timer if the interval changed (R59), and starts, restarts or stops the
interval timer where mode or interval changed (R94). With the promote threshold unchanged nothing else changes; a changed
one gives every record the state of R50 and raises one NEW_SUSPECT event for each that becomes SUSPECT (R57). -/
def Obligations.SettingsWrite : Prop :=
  (∀ (h : ReqHead) (w : RawSettings) (s : State), Executes ⟨h, .tableWriteSettings (some w)⟩ s →
    (∀ f, settingsFault w = some f →
      exec (.tableWriteSettings h (some w)) s
        = .next (replied ⟨h, .tableWriteSettings (some w)⟩ .badValue (.settingsField f) s))
      ∧ (∀ n : Settings, settingsFault w = none →
        w = { window := n.window, promote := n.promote, aging := n.aging, mFull := n.mFull, mLow := n.mLow,
              watchdog := n.watchdog, mode := some n.mode, interval := n.interval, crcThreshold := n.crcThreshold } →
        let rising := s.tally.records.filter (fun p => p.2.state == .watch && decide (n.promote ≤ p.2.voters.length))
        exec (.tableWriteSettings h (some w)) s = .next
          { s with
            mgmt := { answered ⟨h, .tableWriteSettings (some w)⟩ .ok .empty s.mgmt with settings := n }
            bands := { s.bands with intervalDue :=
              if n.mode = s.mgmt.settings.mode ∧ (n.mode = .manual ∨ n.interval = s.mgmt.settings.interval)
              then s.bands.intervalDue
              else if n.mode = .auto then some (s.clocks.elapsed + n.interval * 1000) else none }
            tally := { s.tally with
              agingDue := if n.aging = s.mgmt.settings.aging then s.tally.agingDue else s.clocks.elapsed + n.aging * 1000
              records :=
                if n.promote = s.mgmt.settings.promote then s.tally.records
                else s.tally.records.map (fun p => (p.1,
                  { p.2 with state := if n.promote ≤ p.2.voters.length then .suspect else .watch })) }
            reports :=
              if n.promote = s.mgmt.settings.promote then s.reports
              else (List.replicate rising.length Event.newSuspect).foldl raiseEvent s.reports }))
    ∧ (∀ w : RawSettings, settingsFault w =
        if 1000 < w.window then some .window
        else if w.promote = 0 ∨ 8 < w.promote then some .promote
        else if w.aging < 10 ∨ 86400 < w.aging then some .aging
        else if 100 < w.mFull then some .mFull
        else if w.mLow = 0 ∨ 100 < w.mLow then some .mLow
        else if w.watchdog = 0 ∨ 255 < w.watchdog then some .watchdog
        else if w.mode = none then some .mode
        else if w.interval = 0 ∨ 3600 < w.interval then some .interval
        else if w.crcThreshold = 0 ∨ 65535 < w.crcThreshold then some .crcThreshold
        else none)
    ∧ ∀ w : RawSettings,
        (settingsFault w = none ↔
          w.window ≤ 1000 ∧ 1 ≤ w.promote ∧ w.promote ≤ 8 ∧ 10 ≤ w.aging ∧ w.aging ≤ 86400 ∧ w.mFull ≤ 100
            ∧ 1 ≤ w.mLow ∧ w.mLow ≤ 100 ∧ 1 ≤ w.watchdog ∧ w.watchdog ≤ 255 ∧ w.mode ≠ none
            ∧ 1 ≤ w.interval ∧ w.interval ≤ 3600 ∧ 1 ≤ w.crcThreshold ∧ w.crcThreshold ≤ 65535)
          ∧ (1000 < w.window → settingsFault w = some .window)
          ∧ (w.window ≤ 1000 → (w.promote = 0 ∨ 8 < w.promote) → settingsFault w = some .promote)

/-- TABLE_WRITE to the report slot table (R181): the conditions in their order; an accepted write takes the slot out of
the queue, replaces its entry, queues an enabled NOW slot at the tail and starts an enabled PERIODIC slot's timer. -/
def Obligations.ReportSlotWrite : Prop :=
  (∀ (h : ReqHead) (w : RawSlot) (s : State), Executes ⟨h, .tableWriteReportSlot (some w)⟩ s →
    exec (.tableWriteReportSlot h (some w)) s = .next
      (if slotShapeOk w = false then replied ⟨h, .tableWriteReportSlot (some w)⟩ .badRequest .empty s
       else if 7 < w.slot then replied ⟨h, .tableWriteReportSlot (some w)⟩ .badIndex .empty s
       else
         match slotOf w with
         | none => replied ⟨h, .tableWriteReportSlot (some w)⟩ .badValue .empty s
         | some e =>
           let due := if e.enabled = true ∧ e.trigger = .periodic then
               e.period.map (fun p => s.clocks.elapsed + p * 1000) else none
           let rest := s.reports.queue.filter (fun x => x.slot != w.slot)
           { s with
             reports := { s.reports with
               slots := s.reports.slots.set w.slot { entry := e, due := due }
               queue := if e.enabled = true ∧ e.trigger = .now then
                   rest ++ [{ slot := w.slot, cause := .now, count := 1 }] else rest }
             mgmt := answered ⟨h, .tableWriteReportSlot (some w)⟩ .ok .empty s.mgmt }))
    ∧ (∀ w : RawSlot, slotShapeOk w = true ↔
        (w.trigger = some .now → w.period = none ∧ w.events = none ∧ w.bandFilter = none)
          ∧ (w.trigger = some .periodic → w.period ≠ none ∧ w.events = none ∧ w.bandFilter = none)
          ∧ (w.trigger = some .onEvent → w.period = none ∧ w.events ≠ none))
    ∧ ∀ (w : RawSlot) (e : SlotEntry), slotOf w = some e ↔
        w.enabled = some e.enabled ∧ w.repeats = some e.repeats ∧ w.kind = some e.kind ∧ w.trigger = some e.trigger
          ∧ w.period = e.period ∧ w.events = e.events.map (fun v => { set := v, other := false }) ∧ w.bandFilter = e.bandFilter
          ∧ (∀ p, e.period = some p → 1 ≤ p ∧ p ≤ 3600) ∧ (∀ n, e.bandFilter = some n → n ≤ 31)
          ∧ (∀ v, e.events = some v → v.declare = true ∨ v.clear = true ∨ v.newSuspect = true ∨ v.tallyFull = true ∨ v.searchEnd = true)

/-! ## The map and the attachments -/

/-- MAP_OPEN (R5): the conditions in their order; accepted, the map is EDIT and the tally emptied, the element table, the
attachments and the tracking table kept; an analysis in progress is marked if the map was READY (R4). -/
def Obligations.MapOpen : Prop :=
  ∀ (h : ReqHead) (s : State), Executes ⟨h, .mapOpen⟩ s → h.bodyLen = 0 →
    exec (.mapOpen h) s = .next
      (if s.map.state = .edit then replied ⟨h, .mapOpen⟩ .mapState .empty s
       else if s.search.record ≠ none then replied ⟨h, .mapOpen⟩ .searchActive .empty s
       else if ∃ p ∈ s.tlm.entries, p.2.state ≠ .pass then replied ⟨h, .mapOpen⟩ .legBusy .empty s
       else
         { s with
           map := { s.map with state := .edit }
           tally := { s.tally with records := [] }
           echo := if s.map.state = .ready then
               { s.echo with analysis := s.echo.analysis.map (fun a => { a with mapLeft := true }) } else s.echo
           mgmt := answered ⟨h, .mapOpen⟩ .ok .empty s.mgmt })

/-- MAP_WRITE (R6, R7), MAP_DELETE (R8) and MAP_CLEAR (R9): the checks, and the element table afterward. An element record
passes when its values are those of R6. MAP_CLEAR leaves the map EDIT with its validation error. That MAP_CLEAR's body is
looked at before the map state is the model's choice (notes/assumptions/10.md), and so is that the length of MAP_WRITE's and
MAP_DELETE's body is looked at before its count and numbers (notes/assumptions/29.md). -/
def Obligations.MapEdits : Prop :=
  (∀ (h : ReqHead) (n : Nat) (records : List RawElement) (s : State), Executes ⟨h, .mapWrite (some (n, records))⟩ s →
      exec (.mapWrite h (some (n, records))) s = .next
        (if s.map.state ≠ .edit then replied ⟨h, .mapWrite (some (n, records))⟩ .mapState .empty s
         else if records.length ≠ n then replied ⟨h, .mapWrite (some (n, records))⟩ .badRequest .empty s
         else if n = 0 ∨ 32 < n then replied ⟨h, .mapWrite (some (n, records))⟩ .badValue .empty s
         else
           match records.findIdx? (fun r => !elementOk r) with
           | some i => replied ⟨h, .mapWrite (some (n, records))⟩ .badValue (.position (i + 1)) s
           | none =>
             let t := records.foldl (fun t r => tableSet t r.number (elementOf r)) s.map.elements
             { s with
               map := { s.map with elements := t }
               mgmt := answered ⟨h, .mapWrite (some (n, records))⟩ .ok (.elementCount t.length) s.mgmt }))
    ∧ (∀ (h : ReqHead) (n : Nat) (numbers : List Nat) (s : State), Executes ⟨h, .mapDelete (some (n, numbers))⟩ s →
      exec (.mapDelete h (some (n, numbers))) s = .next
        (if s.map.state ≠ .edit then replied ⟨h, .mapDelete (some (n, numbers))⟩ .mapState .empty s
         else if numbers.length ≠ n then replied ⟨h, .mapDelete (some (n, numbers))⟩ .badRequest .empty s
         else if n = 0 ∨ 32 < n ∨ ∃ x ∈ numbers, 511 < x then
           replied ⟨h, .mapDelete (some (n, numbers))⟩ .badValue .empty s
         else
           let t := s.map.elements.filter (fun p => decide (p.1 ∉ numbers))
           { s with
             map := { s.map with elements := t }
             mgmt := answered ⟨h, .mapDelete (some (n, numbers))⟩ .ok
               (.deleteCounts (s.map.elements.length - t.length) t.length) s.mgmt }))
    ∧ (∀ (h : ReqHead) (s : State), Executes ⟨h, .mapClear⟩ s →
    exec (.mapClear h) s = .next
      (if h.bodyLen ≠ 0 then replied ⟨h, .mapClear⟩ .badRequest .empty s
       else if s.map.state = .edit then
         { s with map := { s.map with elements := [] }, mgmt := answered ⟨h, .mapClear⟩ .ok .empty s.mgmt }
       else replied ⟨h, .mapClear⟩ .mapState .empty s))
    ∧ ∀ r : RawElement, elementOk r = true ↔
        r.number ≤ 511 ∧ r.kind ≠ none ∧ (∀ p, r.parent = some p → p ≤ 511)
          ∧ (r.number = 0 → r.delay = 0) ∧ (r.number ≠ 0 → 1 ≤ r.delay ∧ r.delay ≤ 65535)
          ∧ (r.tapPorts ≠ none ↔ r.kind = some .tap)
          ∧ r.legAddress ≤ 254 ∧ (r.number = 0 → r.legAddress = 0)

/-- MAP_CLOSE (R10) and its completion (R11): the refusals in their order, the close holding the head with the map still
EDIT, and the three ways it ends. Validation (R12): a map passes when no element fails a check, and otherwise the first
check that some element fails is reported with the lowest element that fails it. The rebuild of the tracking table (R119):
an entry in the set is kept, a missing address of the set gets a new entry, and an entry outside the set goes if it is
PASS and is retained if not. -/
def Obligations.MapCloseAndCompletion : Prop :=
  (∀ (h : ReqHead) (s : State), Executes ⟨h, .mapClose⟩ s → h.bodyLen = 0 →
      exec (.mapClose h) s = .next
        (if s.map.state ≠ .edit then replied ⟨h, .mapClose⟩ .mapState .empty s
         else if ∃ p ∈ s.tlm.entries, p.2.state ≠ .pass then replied ⟨h, .mapClose⟩ .legBusy .empty s
         else { s with map := { s.map with closing := true }, mgmt := { s.mgmt with executing := true } }))
    ∧ (∀ (r : Request) (rest : List Request) (s : State), Quiet s → s.map.closing = true → s.mgmt.requests = r :: rest →
      exec .mapCloseCompletion s = .next
        (if s.map.elements = [] then
           { s with
             map := { s.map with state := .empty, error := none, closing := false, attachments :=
               s.map.attachments.map (fun p => (p.1, { p.2 with validity := .stale })) }
             tlm := rebuild [] s.tlm
             mgmt := answered r .ok .empty s.mgmt }
         else
           match validate s.map.elements with
           | none =>
             { s with
               map := { s.map with state := .ready, error := none, closing := false, attachments :=
                 s.map.attachments.map (fun p =>
                   (p.1, if attachmentFits s.map.elements p.2 then p.2 else { p.2 with validity := .stale })) }
               tlm := rebuild (legAddresses s.map.elements) s.tlm
               mgmt := answered r .ok .empty s.mgmt }
           | some e =>
             { s with
               map := { s.map with error := some e, closing := false }
               mgmt := answered r .badValue (.mapError e) s.mgmt }))
    ∧ (∀ t : Table Element, tableOk 512 t = true →
        (validate t = none ↔ ∀ reason n, ¬ failsCheck t reason n)
          ∧ ∀ n reason, validate t = some { element := n, reason := reason } ↔
              failsCheck t reason n ∧ (∀ m, m < n → ¬ failsCheck t reason m)
                ∧ ∀ earlier m, checkOrder.idxOf earlier < checkOrder.idxOf reason → ¬ failsCheck t earlier m)
    ∧ (∀ (t : Table Element) (a : Attachment), attachmentFits t a = true ↔
        ∃ e, tableGet t a.element = some e ∧ e.kind = .tap ∧ a.port ≤ (e.tapPorts.map (·.val)).getD 0)
    ∧ (∀ (t : Table Element) (a : Nat), a ∈ legAddresses t ↔ a ≠ 0 ∧ ∃ n, n ∈ t.map (·.1) ∧ legOf t n = a)
    ∧ ∀ (addresses : List Nat) (t : Telemetry), tableOk 255 t.entries = true →
        { rebuild addresses t with entries := t.entries } = t
          ∧ ∀ a, tableGet (rebuild addresses t).entries a =
              if a ∈ addresses then
                match tableGet t.entries a with
                | some e => some { e with retained := false }
                | none => some { state := .pass, owner := none, deadline := none, reachable := true, timeouts := 0,
                                 failures := 0, lastReply := none, retained := false }
              else
                (tableGet t.entries a).bind (fun e => if e.state = .pass then none else some { e with retained := true })

/-- ATTACH_SET (R17 to R19): the checks in their order; a new station takes the lowest free index, a known one keeps its
index, and a change of element or tap port takes that index out of every voter list (`withoutVoter`, R58). The lowest free index is vacant with
every lower one occupied; there is none when all are occupied (R18). -/
def Obligations.AttachSet : Prop :=
  (∀ (h : ReqHead) (w : RawAttach) (s : State), Executes ⟨h, .attachSet (some w)⟩ s →
    let r : Request := ⟨h, .attachSet (some w)⟩
    let entry : Attachment :=
      { station := w.station, element := w.element, port := w.port, drop := w.drop, validity := .valid }
    exec (.attachSet h (some w)) s = .next
      (if s.map.state ≠ .ready then replied r .mapState .empty s
       else if attachOk s.map.elements w = false then replied r .badValue .empty s
       else
         match s.map.attachments.find? (fun p => p.2.station == w.station) with
         | some (i, a) =>
           let t := { s with map := { s.map with attachments := tableSet s.map.attachments i entry } }
           let u := if a.element = w.element ∧ a.port = w.port then t else withoutVoter i t
           replied r .ok (.attachIndex i) u
         | none =>
           match lowestFree s.map.attachments 1024 0 with
           | some i =>
             replied r .ok (.attachIndex i)
               { s with map := { s.map with attachments := tableSet s.map.attachments i entry } }
           | none => replied r .tableFull .empty s))
    ∧ (∀ (t : Table Attachment) (bound : Nat),
        (∀ i, lowestFree t bound 0 = some i ↔ i < bound ∧ tableGet t i = none ∧ ∀ j, j < i → tableGet t j ≠ none)
          ∧ (lowestFree t bound 0 = none ↔ ∀ j, j < bound → tableGet t j ≠ none))
    ∧ ∀ (t : Table Element) (w : RawAttach), attachOk t w = true ↔
        w.station ≠ 0 ∧ w.drop ≤ 2000 ∧ 1 ≤ w.port
          ∧ ∃ e, tableGet t w.element = some e ∧ e.kind = .tap ∧ ∃ n, (w.port ≤ n.val ∧ e.tapPorts = some n)

/-- ATTACH_DELETE (R20), in every map state: refused with NOT_FOUND when no entry holds the station id; otherwise the index
is freed and taken out of every voter list, each record that held it evaluated and each that rises to SUSPECT by it raising
one NEW_SUSPECT (`withoutVoter`, R57, R58), and nothing else changes. A shorter list lifts no record, so where every record
has the state of R50 no event is raised. -/
def Obligations.AttachDelete : Prop :=
  (∀ (h : ReqHead) (station : Word32) (s : State), Executes ⟨h, .attachDelete (some station)⟩ s →
    exec (.attachDelete h (some station)) s = .next
      (match s.map.attachments.find? (fun p => p.2.station == station) with
       | none => replied ⟨h, .attachDelete (some station)⟩ .notFound .empty s
       | some (i, _) =>
         replied ⟨h, .attachDelete (some station)⟩ .ok (.attachIndex i)
           (withoutVoter i
             { s with map := { s.map with attachments := s.map.attachments.filter (fun p => p.1 != i) } })))
    ∧ ∀ (i : Nat) (s : State), TallyLaw s → (withoutVoter i s).reports = s.reports

/-! ## The engines -/

/-- TALLY_CLEAR in its two scopes (R64), and COUNTER_SNAPSHOT (R96): in MANUAL mode an interval transfer over all 32 bands,
answered with its time; in AUTO refused. The band table's entries and each band's state and runs stand as they were. -/
def Obligations.TallyClearAndCounterSnapshot : Prop :=
  (∀ (h : ReqHead) (s : State), Executes ⟨h, .tallyClearAll true⟩ s →
      exec (.tallyClearAll h true) s = .next
        { s with
          tally := { s.tally with records := [], overflow := 0, replacement := 0 }
          mgmt := answered ⟨h, .tallyClearAll true⟩ .ok .empty s.mgmt })
    ∧ (∀ (h : ReqHead) (s : State), Executes ⟨h, .tallyClearFlags true⟩ s →
      exec (.tallyClearFlags h true) s = .next
        { s with
          tally := { s.tally with records := s.tally.records.map (fun p => (p.1, { p.2 with coincident := false })) }
          mgmt := answered ⟨h, .tallyClearFlags true⟩ .ok .empty s.mgmt })
    ∧ (∀ (h : ReqHead) (s : State), Executes ⟨h, .counterSnapshot⟩ s →
    exec (.counterSnapshot h) s = .next
      (if h.bodyLen ≠ 0 then replied ⟨h, .counterSnapshot⟩ .badRequest .empty s
       else if s.mgmt.settings.mode = .auto then replied ⟨h, .counterSnapshot⟩ .badRequest .empty s
       else
         { s with
           bands := { s.bands with
             bands := s.bands.bands.map (fun x =>
               { x with live := { x.live with lastCount := x.live.hotCount, lastLongest := x.live.longest,
                                              hotCount := 0, longest := 0 } })
             lastTransfer := some s.clocks.plantTime }
           mgmt := answered ⟨h, .counterSnapshot⟩ .ok (.transferTime (some s.clocks.plantTime)) s.mgmt }))

/-- SEARCH_START (R124): the ten conditions in their order. Accepted, with the first child leg of element 0 not
UNREACHABLE, the search is in BASELINE at head 0 with its number and start time taken, and nothing else changes; with
UNREACHABLE legs first, each is classified UNKNOWN in its turn (R125), in a taking up bounded at 80 legs and levels (the
model's deduction, notes/assumptions/23.md). That the settle remaining is 0 until the first ACK_STEP is the model's choice
(notes/assumptions/32.md). The tree's words of R14: an element's path, the section head it lies under,
and a head's child legs in ascending element number, which make the level list. -/
def Obligations.SearchStart : Prop :=
  (∀ (h : ReqHead) (w : RawSearch) (s : State), Executes ⟨h, .searchStart (some w)⟩ s →
    let r : Request := ⟨h, .searchStart (some w)⟩
    let refusal : Option Completion :=
      if 31 < w.band then some .badIndex
      else if w.level = 0 ∨ 3 < w.level ∨ w.k = 0 ∨ 16 < w.k ∨ 8 < w.sk ∨ w.hold = 0 ∨ 60 < w.hold then some .badValue
      else if s.map.state ≠ .ready then some .mapState
      else if s.search.record ≠ none then some .searchActive
      else if (s.bands.bands[w.band]?).map (fun x => x.live.state) ≠ some .declared then some .noBand
      else if ∃ p ∈ s.tlm.entries, p.2.state ≠ .pass then some .legBusy
      else if childLegs s.map.elements 0 = [] then some .noLegs
      else if 60 * (w.level : Int) - s.mgmt.settings.mFull ≤ s.mgmt.settings.mLow then some .badValue
      else none
    (∀ code, refusal = some code → exec (.searchStart h (some w)) s = .next (replied r code .empty s))
      ∧ (∀ l legs, refusal = none → levelList s.map.elements 0 = l :: legs →
          (∀ e, tableGet s.tlm.entries l.address = some e → e.reachable = true) →
          exec (.searchStart h (some w)) s = .next
            { s with
              search := { s.search with
                record := some
                  { state := .baseline, band := w.band, level := w.level, step := 60 * (w.level : Int), k := w.k, sk := w.sk,
                    hold := w.hold, mFull := s.mgmt.settings.mFull, mLow := s.mgmt.settings.mLow,
                    number := s.search.nextNumber, startTime := s.clocks.plantTime, head := 0, legs := l :: legs,
                    current := 0, peakSum := 0, collected := 0, baseline := none, settle := 0, measureDeadline := none,
                    path := [], secondary := [], unknowns := [], measured := 0, cause := none }
                nextNumber := if 65535 ≤ s.search.nextNumber then 1 else s.search.nextNumber + 1 }
              mgmt := answered r .ok (.searchNumber s.search.nextNumber) s.mgmt })
      ∧ (refusal = none →
          exec (.searchStart h (some w)) s = .next
            (settle (takeUp s.map.elements s.tlm.entries 80 (newSearch w s))
              { s with
                search := { s.search with nextNumber := if 65535 ≤ s.search.nextNumber then 1 else s.search.nextNumber + 1 }
                mgmt := answered r .ok (.searchNumber s.search.nextNumber) s.mgmt }))
      ∧ (∀ (t : Table Element) (entries : Table TrackEntry) (n : Nat) (x : SearchRecord) (l : Leg) (e : TrackEntry),
          x.legs[x.current]? = some l → tableGet entries l.address = some e → e.reachable = false →
          takeUp t entries (n + 1) x = takeUp t entries n
            { x with
              current := x.current + 1
              legs := x.legs.set x.current { l with cls := some .unknown, drop := none }
              unknowns := if x.unknowns.length < 4 then x.unknowns ++ [l.element] else x.unknowns }))
    ∧ ∀ t : Table Element,
        let head := fun (e : Nat) => e = 0 ∨ legOf t e ≠ 0
        (∀ e, legOf t e = ((tableGet t e).map (·.legAddress)).getD 0)
          ∧ (∀ e, (pathOf t e)[0]? = some e ∧ (pathOf t e).length ≤ 32
              ∧ ∀ i x, i < 31 → (pathOf t e)[i]? = some x →
                  (pathOf t e)[i + 1]? = (tableGet t x).bind (·.parent))
          ∧ (∀ e h, sectionHead t e = some h ↔
              ∃ below above, pathOf t e = below ++ h :: above ∧ head h ∧ ∀ x ∈ below, ¬ head x)
          ∧ (∀ e h, e ∈ childLegs t h ↔ e ∈ t.map (·.1) ∧ legOf t e ≠ 0
              ∧ ∃ below above, (pathOf t e).tail = below ++ h :: above ∧ head h ∧ ∀ x ∈ below, ¬ head x)
          ∧ (tableOk 512 t = true → ∀ h, (childLegs t h).Pairwise (· < ·))
          ∧ ∀ h, levelList t h =
              (childLegs t h).map (fun e => { element := e, address := legOf t e, cls := none, drop := none })

/-- SEARCH_ABORT (R137 to R139): refused in IDLE; in ENDING answered with the cause already fixed and nothing changed;
otherwise the cause is ABORTED, and the state the search was in decides: BASELINE ends at once; STEPPING ends at once with
its STEP not started, withdrawn, and waits in ENDING otherwise; SETTLE and MEASURE post a RELEASE of the leg and wait in
ENDING, the peaks of a measure in progress discarded; RELEASING and RELEASE_WAIT wait in ENDING. -/
def Obligations.SearchAbort : Prop :=
  ∀ (h : ReqHead) (s : State), Executes ⟨h, .searchAbort⟩ s → h.bodyLen = 0 →
    (s.search.record = none → exec (.searchAbort h) s = .next (replied ⟨h, .searchAbort⟩ .notFound .empty s))
      ∧ (∀ x, s.search.record = some x → x.state = .ending →
          exec (.searchAbort h) s = .next (replied ⟨h, .searchAbort⟩ .ok (.searchAborted x.number x.cause) s))
      ∧ (∀ x, s.search.record = some x → x.state ≠ .ending →
          let t := replied ⟨h, .searchAbort⟩ .ok (.searchAborted x.number none) s
          (x.state = .baseline → exec (.searchAbort h) s = .next (endSearch x .aborted x.head t))
            ∧ (x.state = .stepping → s.tlm.searchRequest ≠ none →
              exec (.searchAbort h) s = .next (endSearch x .aborted x.head { t with tlm := { t.tlm with searchRequest := none } }))
            ∧ ((x.state = .stepping ∧ s.tlm.searchRequest = none) ∨ x.state = .releasing ∨ x.state = .releaseWait →
              exec (.searchAbort h) s = .next
                { t with search := { t.search with record := some { x with state := .ending, cause := some .aborted } } })
            ∧ (∀ l, x.state = .settle ∨ x.state = .measure → x.legs[x.current]? = some l →
              exec (.searchAbort h) s = .next
                { t with
                  search := { t.search with
                    record := some
                      { x with
                        state := .ending, measureDeadline := none, cause := some .aborted
                        peakSum := if x.state = .measure then 0 else x.peakSum
                        collected := if x.state = .measure then 0 else x.collected } }
                  tlm := { t.tlm with searchRequest := some { address := l.address, command := .release } } }))

/-- DIRECT_STEP (R116), DIRECT_RELEASE and DIRECT_QUERY (R117): the conditions in their order; accepted, the command
stands in the direct queue with its request's tag, and the request holds the head. The search holds a leg address (R114)
while its pending request names it, while a transaction of its own to it is in progress, or while the address's entry is
out of PASS and owned by a search that is not IDLE. -/
def Obligations.DirectCommands : Prop :=
  (∀ (h : ReqHead) (w : RawStep) (s : State), Executes ⟨h, .directStep (some w)⟩ s →
      exec (.directStep h (some w)) s = .next
        (if w.address = 0 ∨ 254 < w.address ∨ w.level = 0 ∨ 3 < w.level ∨ w.hold = 0 ∨ 60 < w.hold then
           replied ⟨h, .directStep (some w)⟩ .badValue .empty s
         else if tableGet s.tlm.entries w.address = none then replied ⟨h, .directStep (some w)⟩ .notFound .empty s
         else if searchHolds s w.address = true then replied ⟨h, .directStep (some w)⟩ .legBusy .empty s
         else if s.search.record ≠ none then replied ⟨h, .directStep (some w)⟩ .searchActive .empty s
         else if ∃ p ∈ s.tlm.entries, p.2.state ≠ .pass then replied ⟨h, .directStep (some w)⟩ .legBusy .empty s
         else
           { s with
             tlm := { s.tlm with directQueue := s.tlm.directQueue ++
               [{ address := w.address, command := .step w.level w.hold, tag := h.tag }] }
             mgmt := { s.mgmt with executing := true } }))
    ∧ (∀ (h : ReqHead) (a : Nat) (s : State), Executes ⟨h, .directRelease (some a)⟩ s →
      exec (.directRelease h (some a)) s = .next
        (if a = 0 ∨ 254 < a then replied ⟨h, .directRelease (some a)⟩ .badValue .empty s
         else if tableGet s.tlm.entries a = none then replied ⟨h, .directRelease (some a)⟩ .notFound .empty s
         else if searchHolds s a = true then replied ⟨h, .directRelease (some a)⟩ .legBusy .empty s
         else
           { s with
             tlm := { s.tlm with directQueue := s.tlm.directQueue ++ [{ address := a, command := .release, tag := h.tag }] }
             mgmt := { s.mgmt with executing := true } }))
    ∧ (∀ (h : ReqHead) (a : Nat) (s : State), Executes ⟨h, .directQuery (some a)⟩ s →
      exec (.directQuery h (some a)) s = .next
        (if a = 0 ∨ 254 < a then replied ⟨h, .directQuery (some a)⟩ .badValue .empty s
         else if tableGet s.tlm.entries a = none then replied ⟨h, .directQuery (some a)⟩ .notFound .empty s
         else
           { s with
             tlm := { s.tlm with directQueue := s.tlm.directQueue ++ [{ address := a, command := .query, tag := h.tag }] }
             mgmt := { s.mgmt with executing := true } }))
    ∧ ∀ (s : State) (a : Nat), searchHolds s a = true ↔
        (∃ c, s.tlm.searchRequest = some { address := a, command := c })
          ∨ (∃ x, s.tlm.transaction = some x ∧ x.requester = .search ∧ x.address = a)
          ∨ (s.search.record ≠ none ∧ ∃ e, tableGet s.tlm.entries a = some e ∧ e.state ≠ .pass ∧ e.owner = some .search)

/-! ## The part as a whole -/

/-- PLANT_TIME_TICK and TIME_SET (R173): plant time rises by 1, from 4294967295 to 0; TIME_SET puts any value there and
leaves the elapsed-time base as it was; after either the next rise comes one second later. That a tick carries the
elapsed-time base to its moment is the model's choice (notes/assumptions/4.md), and so is that the second after TIME_SET
runs from its execution (notes/assumptions/27.md). ADDRESS_SET (R171): outside 1..254 refused; otherwise the address and
its source OVERRIDE, and a response whose header carries the new address. -/
def Obligations.PlantTimeAndAddress : Prop :=
  (∀ s : State, Quiet s → exec .plantTimeTick s = .next
      (let now := max s.clocks.elapsed s.clocks.plantDue
       { s with clocks := { plantTime := s.clocks.plantTime + 1, elapsed := now, plantDue := now + 1000 } }))
    ∧ (∀ (h : ReqHead) (w : Word32) (s : State), Executes ⟨h, .timeSet (some w)⟩ s →
      exec (.timeSet h (some w)) s = .next
        { s with
          clocks := { plantTime := w, elapsed := s.clocks.elapsed, plantDue := s.clocks.elapsed + 1000 }
          mgmt := answered ⟨h, .timeSet (some w)⟩ .ok (.times s.clocks.plantTime w) s.mgmt })
    ∧ (∀ (h : ReqHead) (a : Nat) (s : State), Executes ⟨h, .addressSet (some a)⟩ s →
    exec (.addressSet h (some a)) s = .next
      (if a = 0 ∨ 254 < a then replied ⟨h, .addressSet (some a)⟩ .badValue .empty s
       else
         { s with
           mgmt := answered ⟨h, .addressSet (some a)⟩ .ok (.addresses s.mgmt.nodeAddress (BitVec.ofNat 8 a))
             { s.mgmt with nodeAddress := BitVec.ofNat 8 a, addressSource := .override } }))

/-- IMAGE_LOAD (R194) and the completion of every load (R193): the refusals in their order, the load holding the head and
changing nothing while it reads. An image is good when its format is 1, its records fill the length and give the CRC of the
header, it holds one settings record and no number, index or station id of a kind twice, and every record passes its table's
checks (R192). At the completion a bad image changes nothing but the image status; a good one leaves the
status LOADED and its records in the tables (`TablesLoaded`, steps 1 to 8). IMAGE_LOAD is then answered OK or IMAGE_BAD,
RESET_ALL OK with the image status (R178), and after power-on and pin reset no request waits. The bytes of the records, over
which length and CRC are taken, are free values (the model's choice, notes/assumptions/7.md); that all steps show at the
completion is its deduction (notes/assumptions/17.md); that an attachment record's element may be any number and its index only
one of the table's is its choice (notes/assumptions/19.md), and so is that an image is bad with an enabled field of neither
value (notes/assumptions/22.md), or with a channel threshold or a correction gain above 65535 (notes/assumptions/25.md). -/
def Obligations.ImageLoad : Prop :=
  (∀ (h : ReqHead) (s : State), Executes ⟨h, .imageLoad⟩ s →
      exec (.imageLoad h) s = .next
        (if h.bodyLen ≠ 0 then replied ⟨h, .imageLoad⟩ .badRequest .empty s
         else if s.search.record ≠ none then replied ⟨h, .imageLoad⟩ .searchActive .empty s
         else if s.map.state = .edit then replied ⟨h, .imageLoad⟩ .mapState .empty s
         else { s with image := { s.image with load := some .request }, mgmt := { s.mgmt with executing := true } }))
    ∧ (∀ s : State, Quiet s → s.image.load = some .startUp → imageGood s.image.flash = false →
      exec .imageLoadCompletion s = .next { s with image := { s.image with status := .invalid, load := none } })
    ∧ (∀ s : State, Quiet s → s.image.load = some .startUp → imageGood s.image.flash = true → TableLaw s →
      ∃ t n, exec .imageLoadCompletion s = .next t ∧ TablesLoaded s.image.flash.records n s t
        ∧ t.mgmt = { s.mgmt with settings := n })
    ∧ (∀ f : Flash, imageGood f = true ↔
        f.format = 1 ∧ (Config.recordBytes f.records).length = f.length ∧ checkValue (Config.recordBytes f.records) = f.crc
          ∧ (∃ w, ImageRecord.settings w ∈ f.records) ∧ (f.records.map recordKey).Nodup
          ∧ (f.records.filterMap (fun x =>
              match x with
              | .attachment _ w => some w.station
              | _ => none)).Nodup
          ∧ ∀ x ∈ f.records, recordPasses x)
    ∧ ∀ (who : LoadOrigin) (r : Request) (rest : List Request) (s : State), Quiet s → s.image.load = some who →
      who ≠ .startUp → s.mgmt.requests = r :: rest →
      (imageGood s.image.flash = false →
          exec .imageLoadCompletion s = .next
            { s with
              image := { s.image with status := .invalid, load := none }
              mgmt := answered r (if who = .request then .imageBad else .ok) (.imageStatus .invalid) s.mgmt })
        ∧ (imageGood s.image.flash = true → TableLaw s →
          ∃ t n, exec .imageLoadCompletion s = .next t ∧ TablesLoaded s.image.flash.records n s t
            ∧ t.mgmt = answered r .ok
                (if who = .request then .imageLoaded .loaded t.map.state t.map.error else .imageStatus .loaded)
                { s.mgmt with settings := n })

/-- IMAGE_SAVE and its completion (R195): refused with a body or in EDIT; otherwise the save begins with every table as it
stands, the header in the flash no longer of format 1; at its completion the flash holds those records under a header of
format 1 with their length and CRC, the image status is kept, and the response carries the image length. The records are the
settings, every channel, band, correction, report slot and alarm line, every present element, and every occupied attachment
entry with its index, STALE or not. The bytes of the records, and so their length and CRC, and the length of the header are
free values, and the header is held as fields (the model's choices, notes/assumptions/7.md). -/
def Obligations.ImageSave : Prop :=
  (∀ (h : ReqHead) (s : State), Executes ⟨h, .imageSave⟩ s →
      (h.bodyLen ≠ 0 → exec (.imageSave h) s = .next (replied ⟨h, .imageSave⟩ .badRequest .empty s))
        ∧ (h.bodyLen = 0 → s.map.state = .edit →
            exec (.imageSave h) s = .next (replied ⟨h, .imageSave⟩ .mapState .empty s))
        ∧ (h.bodyLen = 0 → s.map.state ≠ .edit →
            ∃ f, f.format ≠ 1 ∧ exec (.imageSave h) s = .next
              { s with
                image := { s.image with saving := some (imageRecords s), flash := f }
                mgmt := { s.mgmt with executing := true } }))
    ∧ (∀ (l : List ImageRecord) (r : Request) (rest : List Request) (s : State),
      Quiet s → s.image.saving = some l → s.mgmt.requests = r :: rest →
      exec .imageSaveCompletion s = .next
        { s with
          image := { s.image with
            saving := none
            flash := { format := 1, length := (Config.recordBytes l).length, crc := checkValue (Config.recordBytes l),
                       records := l } }
          mgmt := answered r .ok (.imageLength (Config.headerBytes + (Config.recordBytes l).length)) s.mgmt })
    ∧ ∀ (s : State) (x : ImageRecord), x ∈ imageRecords s ↔
        (x = .settings
          (let n := s.mgmt.settings
           { window := n.window, promote := n.promote, aging := n.aging, mFull := n.mFull, mLow := n.mLow,
             watchdog := n.watchdog, mode := some n.mode, interval := n.interval, crcThreshold := n.crcThreshold }))
          ∨ (∃ i c, s.echo.channels[i]? = some c ∧ x = .channel
              { channel := i, enabled := some c.enabled, rate := some c.rate, threshold := c.threshold })
          ∨ (∃ i y, s.bands.bands[i]? = some y ∧ x = .band
              (let b := y.entry
               { band := i, enabled := some b.enabled, start := b.start, stop := b.stop, floor := b.floor,
                 declareMargin := b.declareMargin, clearMargin := b.clearMargin, minBins := b.minBins,
                 declareCount := b.declareCount, clearCount := b.clearCount, mode := some b.mode }))
          ∨ (∃ i c, s.sweep.corrections[i]? = some c ∧ x = .correction i c)
          ∨ (∃ i y, s.reports.slots[i]? = some y ∧ x = .slot
              (let e := y.entry
               { slot := i, enabled := some e.enabled, repeats := some e.repeats, kind := some e.kind,
                 trigger := some e.trigger, period := e.period, events := e.events.map (fun v => { set := v, other := false }),
                 bandFilter := e.bandFilter }))
          ∨ (∃ i e, s.reports.alarms[i]? = some e ∧ x = .alarm
              { line := i, source := some e.source, polarity := some e.polarity })
          ∨ (∃ p ∈ s.map.elements, x = .element
              { number := p.1, kind := some p.2.kind, parent := p.2.parent, delay := p.2.delay, tapPorts := p.2.tapPorts,
                legAddress := p.2.legAddress })
          ∨ (∃ p ∈ s.map.attachments, x = .attachment p.1
              { station := p.2.station, element := p.2.element, port := p.2.port, drop := p.2.drop })

/-- RESET_ENGINES (R177 with R3, R34, R66, R80, R98, R120, R145, R164, R179, R191): the whole state it leaves. Every tracking
entry is kept, one out of PASS becoming UNCONFIRMED with its owner and deadline, but for a retained entry that is PASS
(R119, R120); every period timer starts again, and the report queue holds every enabled NOW slot in ascending slot number,
each with a new trigger record (R191). -/
def Obligations.ResetEngines : Prop :=
  ∀ (h : ReqHead) (s : State), Executes ⟨h, .resetEngines⟩ s → h.bodyLen = 0 →
    exec (.resetEngines h) s = .next
      { s with
        mgmt := answered ⟨h, .resetEngines⟩ .ok .empty s.mgmt
        echo := { channels := s.echo.channels, queue := [], analysis := none, counters := zeroCounters, latest := none }
        tally := { records := [], overflow := 0, replacement := 0, agingDue := s.clocks.elapsed + s.mgmt.settings.aging * 1000 }
        sweep := { assembly := .idle, corrections := s.sweep.corrections, complete := 0, incomplete := 0, orphan := 0,
                   malformed := 0, clamped := 0, lastDiscard := none, latest := none }
        bands :=
          { bands := s.bands.bands.map (fun x => { x with live := resetLive })
            lastTransfer := none
            intervalDue := if s.mgmt.settings.mode = .auto then
                some (s.clocks.elapsed + s.mgmt.settings.interval * 1000) else none }
        search := { record := none, log := [], nextNumber := 1 }
        tlm :=
          { entries := (s.tlm.entries.map (fun p => (p.1,
              { p.2 with state := if p.2.state = .pass then .pass else .unconfirmed, reachable := true, timeouts := 0,
                         failures := 0, lastReply := none }))).filter (fun p => !(p.2.retained && p.2.state == .pass))
            transaction := none, searchRequest := none, directQueue := [], assembling := [], line := s.tlm.line, sent := 0
            timeout := 0, ignored := 0 }
        reports :=
          { s.reports with
            slots := s.reports.slots.map (fun x =>
              { entry := x.entry
                due := if x.entry.enabled = true ∧ x.entry.trigger = .periodic then
                    x.entry.period.map (fun p => s.clocks.elapsed + p * 1000) else none })
            queue := (List.range s.reports.slots.length).filterMap (fun i =>
              if (s.reports.slots[i]?).map (fun x => (x.entry.enabled, x.entry.trigger)) = some (true, .now) then
                some { slot := i, cause := .now, count := 1 } else none) } }

/-- RESET_ALL at its beginning (R178): the tables, the settings record, the map and the attachments at their reset values,
the node address from the strap, the load begun, the head held; plant time, the link and the waiting responses untouched.
The tracking table is rebuilt with no addresses (R119, R120): an entry that was PASS goes, every other is retained
UNCONFIRMED with its owner and deadline. -/
def Obligations.ResetAll : Prop :=
  ∀ (h : ReqHead) (s : State), Executes ⟨h, .resetAll⟩ s → h.bodyLen = 0 →
    exec (.resetAll h) s = .next
      { s with
        mgmt := { s.mgmt with
          executing := true, settings := resetSettings, addressSource := .strap
          nodeAddress := if s.mgmt.strap = 0 then 1 else if s.mgmt.strap = 255 then 254 else s.mgmt.strap }
        map := { state := .empty, elements := [], error := none, closing := false, attachments := [] }
        echo := powerOnEcho
        sweep := powerOnSweep
        tally := { records := [], overflow := 0, replacement := 0, agingDue := s.clocks.elapsed + 900000 }
        bands := { bands := resetBands, lastTransfer := none, intervalDue := some (s.clocks.elapsed + 60000) }
        search := { record := none, log := [], nextNumber := 1 }
        reports := powerOnReports
        image := { s.image with status := .invalid, load := some .resetAll }
        tlm :=
          { entries := (s.tlm.entries.filter (fun p => p.2.state != .pass)).map (fun p => (p.1,
              { p.2 with state := .unconfirmed, reachable := true, timeouts := 0, failures := 0, lastReply := none,
                         retained := true }))
            transaction := none, searchRequest := none, directQueue := [], assembling := [], line := s.tlm.line, sent := 0
            timeout := 0, ignored := 0 } }

/-! ## The return link -/

/-- LOSS_OF_SIGNAL and SIGNAL_RETURN (R151): a LOCKED lane becomes HUNTING, counts a lock loss and cuts short its frame; a
HUNTING lane's run becomes 0; the loss on the hub side reaches no other block, on the node side it discards the assembly
(R74) and fixes a running search's end cause LINK_LOST (R137). What a search does when any end cause is fixed, state by state
(R138): BASELINE ends at once; STEPPING ends at once with its STEP not started, withdrawn, and waits in ENDING otherwise;
SETTLE and MEASURE post a RELEASE of the leg and wait in ENDING, the peaks of a measure in progress discarded; RELEASING and
RELEASE_WAIT wait in ENDING; ENDING keeps its cause, and IDLE is not reached. The signal's return lets the hunt resume at the
first byte received. That loss and return fall at the byte time the link's last event has reached is the model's choice
(notes/assumptions/26.md). -/
def Obligations.SignalLossAndReturn : Prop :=
  (∀ (run p : Nat) (s : State), Quiet s → s.link.hub.lock = .locked run p →
      exec (.lossOfSignal .hubSide) s = .next
        { s with link := { s.link with hub := { s.link.hub with
            lock := .hunting 0 none, cursor := s.link.byteTime, signal := false, rx := none
            lockLosses := min 65535 (s.link.hub.lockLosses + 1) } } })
    ∧ (∀ (run p : Nat) (s : State), Quiet s → s.link.node.lock = .locked run p →
      exec (.lossOfSignal .nodeSide) s = .next (fixCause .linkLost
        { s with
          link := { s.link with node := { s.link.node with
            lock := .hunting 0 none, cursor := s.link.byteTime, signal := false, rx := none
            lockLosses := min 65535 (s.link.node.lockLosses + 1) } }
          sweep :=
            if s.sweep.assembly = .idle then s.sweep
            else { s.sweep with assembly := .idle, incomplete := min 65535 (s.sweep.incomplete + 1),
                                lastDiscard := some .lockLost } }))
    ∧ (∀ (cause : SearchOutcome) (s : State), s.search.record = none → fixCause cause s = s)
    ∧ (∀ (cause : SearchOutcome) (x : SearchRecord) (s : State), s.search.record = some x →
      let now := fun (y : SearchRecord) => { s with search := { s.search with record := some y } }
      (x.state = .ending → fixCause cause s = s)
        ∧ (x.state = .baseline → fixCause cause s = endSearch x cause x.head s)
        ∧ (x.state = .stepping → s.tlm.searchRequest ≠ none →
          fixCause cause s = endSearch x cause x.head { s with tlm := { s.tlm with searchRequest := none } })
        ∧ ((x.state = .stepping ∧ s.tlm.searchRequest = none) ∨ x.state = .releasing ∨ x.state = .releaseWait →
          fixCause cause s = now { x with state := .ending, cause := some cause })
        ∧ ∀ l, x.state = .settle ∨ x.state = .measure → x.legs[x.current]? = some l →
          fixCause cause s =
            { now
                { x with
                  state := .ending, measureDeadline := none, cause := some cause
                  peakSum := if x.state = .measure then 0 else x.peakSum
                  collected := if x.state = .measure then 0 else x.collected } with
              tlm := { s.tlm with searchRequest := some { address := l.address, command := .release } } })
    ∧ (∀ (lane : Lane) (run : Nat) (expected : Option Nat) (s : State), Quiet s →
      (s.link.lane lane).lock = .hunting run expected →
      exec (.lossOfSignal lane) s = .next
        { s with link := s.link.setLane lane { s.link.lane lane with lock := .hunting 0 none, signal := false } })
    ∧ (∀ (lane : Lane) (s : State), Quiet s → (s.link.lane lane).signal = false →
      exec (.signalReturn lane) s = .next
        { s with link := s.link.setLane lane { s.link.lane lane with signal := true, cursor := s.link.byteTime } })

/-- HEADER_TEST_HUNTING (R149): with its signal present a HUNTING lane's run rises at each valid header in its chain, the
third makes it LOCKED with that frame in reception, and an invalid header at the expected position sets the run to 0.
VALID_HEADER and INVALID_HEADER on a LOCKED lane between frames (R150): a valid header sets the invalid-header run to 0
and its frame begins to arrive; an invalid one counts HEADER_ERRORS and moves the expected position on by 16, and the
fourth in a row makes the lane HUNTING at that position; on the node side the loss discards the assembly (R74). The other
lane, both stores and both transmitters stand as they were. When a header is valid (R147). The model takes each test as one
command at its byte position (its choice, notes/assumptions/12.md), moves the byte time there (its choice,
notes/assumptions/4.md), and takes the link's events in the order of their byte moments (its deduction,
notes/assumptions/18.md): a test comes when no frame in transmission has ended, and nothing falls on either lane, before it. -/
def Obligations.HeaderTests : Prop :=
  let beside := fun (lane : Lane) (p : Nat) (s t : State) =>
    LinkBeside lane p s.link t.link ∧ t.link.through = s.link.through ∧ t.link.store = s.link.store
      ∧ t.link.requestsTaken = s.link.requestsTaken
  (∀ (lane : Lane) (hd : List Byte) (run : Nat) (expected : Option Nat) (s : State),
    Quiet s → (s.link.lane lane).lock = .hunting run expected → (s.link.lane lane).signal = true →
    inOrder s.link (expected.getD (s.link.lane lane).cursor) = true →
    let x := s.link.lane lane
    let p := expected.getD x.cursor
    ∃ t, exec (.headerTestHunting lane hd) s = .next t
      ∧ t.link.lane lane =
          (if headerValid hd = true then
             if run ≤ 1 then { x with lock := .hunting (run + 1) (some (p + headerLength hd)) }
             else { x with lock := .locked 0 (p + headerLength hd), rx := some { header := hd, start := p } }
           else if run = 0 then { x with cursor := p + 1 }
           else { x with lock := .hunting 0 none, cursor := p })
      ∧ beside lane p s t ∧ { t with link := s.link } = s)
    ∧ (∀ (lane : Lane) (hd : List Byte) (run p : Nat) (s : State),
      Quiet s → (s.link.lane lane).lock = .locked run p → (s.link.lane lane).rx = none → headerValid hd = true →
      inOrder s.link p = true →
      ∃ t, exec (.validHeader lane hd) s = .next t
        ∧ t.link.lane lane = { s.link.lane lane with
            lock := .locked 0 (p + headerLength hd), rx := some { header := hd, start := p } }
        ∧ beside lane p s t ∧ { t with link := s.link } = s)
    ∧ (∀ (lane : Lane) (hd : List Byte) (run p : Nat) (s : State),
      Quiet s → (s.link.lane lane).lock = .locked run p → (s.link.lane lane).rx = none → headerValid hd = false → run ≤ 2 →
      inOrder s.link p = true →
      ∃ t, exec (.invalidHeader lane hd) s = .next t
        ∧ t.link.lane lane = { s.link.lane lane with
            lock := .locked (run + 1) (p + 16), headerErrors := min 65535 ((s.link.lane lane).headerErrors + 1) }
        ∧ beside lane p s t ∧ { t with link := s.link } = s)
    ∧ (∀ (hd : List Byte) (p : Nat) (s : State),
      Quiet s → s.link.hub.lock = .locked 3 p → s.link.hub.rx = none → headerValid hd = false → inOrder s.link p = true →
      ∃ t, exec (.invalidHeader .hubSide hd) s = .next t
        ∧ t.link.hub = { s.link.hub with
            lock := .hunting 0 none, cursor := p, headerErrors := min 65535 (s.link.hub.headerErrors + 1),
            lockLosses := min 65535 (s.link.hub.lockLosses + 1) }
        ∧ beside .hubSide p s t ∧ { t with link := s.link } = s)
    ∧ (∀ (hd : List Byte) (p : Nat) (s : State),
      Quiet s → s.link.node.lock = .locked 3 p → s.link.node.rx = none → headerValid hd = false → inOrder s.link p = true →
      ∃ t, exec (.invalidHeader .nodeSide hd) s = .next (fixCause .linkLost t)
        ∧ t.link.node = { s.link.node with
            lock := .hunting 0 none, cursor := p, headerErrors := min 65535 (s.link.node.headerErrors + 1),
            lockLosses := min 65535 (s.link.node.lockLosses + 1) }
        ∧ t.sweep =
            (if s.sweep.assembly = .idle then s.sweep
             else { s.sweep with assembly := .idle, incomplete := min 65535 (s.sweep.incomplete + 1),
                                 lastDiscard := some .lockLost })
        ∧ beside .nodeSide p s t ∧ { t with link := s.link, sweep := s.sweep } = s)
    ∧ (∀ (l : Link) (m : Nat), inOrder l m = true ↔ m ≤ l.hubTx.endsAt ∧ m ≤ l.nodeTx.endsAt
        ∧ ∀ lane d, laneDue (l.lane lane) = some d → m ≤ d)
    ∧ (∀ x : RxLane, laneDue x =
        match x.lock, x.rx with
        | .locked _ _, some r => some (r.start + headerLength r.header)
        | .locked _ p, none => some p
        | .hunting _ expected, _ => if x.signal = true then some (expected.getD x.cursor) else none)
    ∧ ∀ h : List Byte,
        let b := byteAt h
        headerKind h = b 1 ∧ headerLength h = 16 * (b 2).toNat ∧ headerAddress h = b 3
          ∧ (headerValid h = true ↔
              h.length = 6 ∧ b 0 = 0xB7 ∧ 1 ≤ (b 2).toNat ∧ (b 2).toNat ≤ 35 ∧ b 4 = ~~~(b 1 ^^^ b 2 ^^^ b 3)
                ∧ (b 5).toNat = ((b 0).toNat + (b 1).toNat + (b 2).toNat + (b 3).toNat) % 256
                ∧ (b 1 = 0x00 → b 2 = 1))

/-- BURST_DESC (R25 to R27): the frame is forwarded in every case; with a bad CRC nothing else happens, with a good one and
another length it is counted MALFORMED, with the right length it is queued and counted ACCEPTED, or counted NOT_ANALYSED
when the queue holds 16. FRAME_ARRIVAL (R152): a frame of any other kind is counted on its lane, its CRC computed unless
it is FILL, and stored for the other side unless it is FILL; no other block changes. Both count on their lane (R152, R153).
When a frame's CRC is good, and its check value bit by bit (R147); what a descriptor's fields hold (R148). A frame arrives whole when it is the
one in reception on a LOCKED lane and, in the order of the link's byte moments (the model's deduction,
notes/assumptions/18.md), its last byte comes next; that the arrival moves the byte time to its moment is the model's choice
(notes/assumptions/4.md). -/
def Obligations.FrameArrivals : Prop :=
  (∀ (f : Frame) (s : State), Quiet s → arrives .nodeSide f s.link = true → headerKind f = 0x41 →
    ∃ t, exec (.burstDesc f) s = .next t
      ∧ t.link.node = laneCounted f s.link.node
      ∧ LinkBeside .nodeSide (wholeAt s.link.node) s.link t.link
      ∧ t.link.through = s.link.through ++ [f] ∧ t.link.store = s.link.store
      ∧ t.link.requestsTaken = s.link.requestsTaken
      ∧ t.echo =
          (if crcGood f = false then s.echo
           else if f.length ≠ 128 then
             { s.echo with counters := { s.echo.counters with malformed := min 65535 (s.echo.counters.malformed + 1) } }
           else if s.echo.queue.length < 16 then
             { s.echo with
               queue := s.echo.queue ++ [descriptorOf f]
               counters := { s.echo.counters with accepted := min 65535 (s.echo.counters.accepted + 1) } }
           else
             { s.echo with
               counters := { s.echo.counters with notAnalysed := min 65535 (s.echo.counters.notAnalysed + 1) } })
      ∧ { t with link := s.link, echo := s.echo } = s)
    ∧ (∀ (lane : Lane) (f : Frame) (s : State), Quiet s → arrives lane f s.link = true → hasOwnRow lane f s = false →
    ∃ t, exec (.frameArrival lane f) s = .next t
      ∧ t.link.lane lane = laneCounted f (s.link.lane lane)
      ∧ LinkBeside lane (wholeAt (s.link.lane lane)) s.link t.link ∧ t.link.requestsTaken = s.link.requestsTaken
      ∧ t.link.through = (if headerKind f ≠ 0x00 ∧ lane = .nodeSide then s.link.through ++ [f] else s.link.through)
      ∧ t.link.store =
          (if headerKind f ≠ 0x00 ∧ lane = .hubSide then s.link.store ++ [{ frame := f, taken := false }] else s.link.store)
      ∧ { t with link := s.link } = s)
    ∧ (∀ (lane : Lane) (f : Frame) (s : State), hasOwnRow lane f s = true ↔
        match lane with
        | .nodeSide => headerKind f = 0x41 ∨ headerKind f = 0x42
        | .hubSide => headerKind f = 0x61 ∧ crcGood f = true ∧ (headerAddress f = s.mgmt.nodeAddress ∨ headerAddress f = 255))
    ∧ (∀ (lane : Lane) (f : Frame) (l : Link), arrives lane f l = true ↔
        ∃ run p r, (l.lane lane).lock = .locked run p ∧ (l.lane lane).rx = some r
          ∧ f.take 6 = r.header ∧ f.length = headerLength r.header ∧ inOrder l (r.start + headerLength r.header) = true)
    ∧ (∀ (x : RxLane) (r : Reception), x.rx = some r → wholeAt x = r.start + headerLength r.header)
    ∧ (∀ f : Frame, crcGood f = true ↔ ∃ (rest : List Byte) (b0 b1 b2 b3 : Byte), f = rest ++ [b0, b1, b2, b3]
        ∧ (checkValue rest).toNat = b0.toNat + 256 * b1.toNat + 65536 * b2.toNat + 16777216 * b3.toNat)
    ∧ (∀ bytes : List Byte, checkValue bytes = ~~~(bytes.foldl
        (fun (reg : Word32) (b : Byte) => [0, 1, 2, 3, 4, 5, 6, 7].foldl
          (fun (r : Word32) i => if b.getLsbD i = r.getLsbD 0 then r >>> 1 else (r >>> 1) ^^^ 0xEDB88320) reg) 0xFFFFFFFF))
    ∧ ∀ f : Frame, f.length = 128 →
        let b := fun i => (byteAt f i).toNat
        let signed := fun i => if b i < 128 then (b i * 256 + b (i + 1) : Int) else b i * 256 + b (i + 1) - 65536
        let d := descriptorOf f
        d.station.toNat = 16777216 * b 6 + 65536 * b 7 + 256 * b 8 + b 9 ∧ d.channel = b 10
          ∧ d.taps.length = 24 ∧ ∀ j, j < 24 → d.taps[j]? = some (signed (18 + 4 * j), signed (20 + 4 * j))

/-- SPECTRUM_SEG (R67, R70 to R73): counted on its lane (R152, R153) and forwarded in every case, with its effect on the assembly; the good segment 3 that
completes a sweep is the only case that reaches another block (R72, R86). The completed sweep is corrected bin by bin with
its group's entry (R75, R76): the level times the gain over 32768, rounded to the nearest, ties away from zero, then the
offset; its clamped bins are counted, and CLAMPED_SWEEPS rises when there is one (R77). The hand-off itself leaves the link,
the sweep block and the blocks it does not reach as they were, with a search running or not. That the segment arrives in the
order of the link's byte moments is the model's deduction (notes/assumptions/18.md), that its arrival moves the byte time to its
moment its choice (notes/assumptions/4.md). -/
def Obligations.SpectrumSegment : Prop :=
  (∀ (f : Frame) (s : State), Quiet s → arrives .nodeSide f s.link = true → headerKind f = 0x42 →
    let index := (byteAt f 8).toNat
    let n := beNat (field f 6 2)
    let received := fun (s t : State) =>
      t.link.node = laneCounted f s.link.node ∧ LinkBeside .nodeSide (wholeAt s.link.node) s.link t.link
        ∧ t.link.through = s.link.through ++ [f] ∧ t.link.store = s.link.store
        ∧ t.link.requestsTaken = s.link.requestsTaken
    (∀ s0 got, crcGood f = true → f.length = 528 → index = 3 → s.sweep.assembly = .assembling s0 3 got → n = s0 →
      let u := unclampedAll s.sweep.corrections 0 (got ++ segmentLevels f)
      let clamps := (u.filter (fun x => decide (x < -1000) || decide (1000 < x))).length
      ∃ t, exec (.spectrumSeg f) s = .next (handOff s0 (u.map (fun x => max (-1000) (min 1000 x))) t)
        ∧ received s t
        ∧ t.sweep =
            { s.sweep with
              assembly := .idle, complete := min 65535 (s.sweep.complete + 1)
              clamped := if clamps = 0 then s.sweep.clamped else min 65535 (s.sweep.clamped + 1)
              latest := some { sweep := s0, time := s.clocks.plantTime, clampCount := clamps } }
        ∧ { t with link := s.link, sweep := s.sweep } = s)
      ∧ ((¬ ∃ s0 got, crcGood f = true ∧ f.length = 528 ∧ index = 3 ∧ s.sweep.assembly = .assembling s0 3 got ∧ n = s0) →
        ∃ t, exec (.spectrumSeg f) s = .next t
          ∧ received s t
          ∧ t.sweep =
              (let dropped := fun why => if s.sweep.assembly = .idle then s.sweep
                 else { s.sweep with assembly := .idle, incomplete := min 65535 (s.sweep.incomplete + 1),
                                     lastDiscard := some why }
               if crcGood f = false then dropped .badCrc
               else if f.length ≠ 528 ∨ 3 < index then
                 { dropped .malformed with malformed := min 65535 (s.sweep.malformed + 1) }
               else if index = 0 then { dropped .restarted with assembly := .assembling n 1 (segmentLevels f) }
               else
                 match s.sweep.assembly with
                 | .idle => { s.sweep with orphan := min 65535 (s.sweep.orphan + 1) }
                 | .assembling s0 expected got =>
                   if index ≠ expected then dropped .outOfOrder
                   else if n ≠ s0 then dropped .wrongSweep
                   else { s.sweep with assembly := .assembling s0 (index + 1) (got ++ segmentLevels f) })
          ∧ { t with link := s.link, sweep := s.sweep } = s))
    ∧ (∀ (n : Nat) (levels : List Level) (s : State),
        let t := handOff n levels s
        { t with bands := s.bands, search := s.search, reports := s.reports, tlm := s.tlm, tally := s.tally } = s
          ∧ { t.tlm with searchRequest := s.tlm.searchRequest } = s.tlm
          ∧ { t.tally with records := s.tally.records } = s.tally ∧ { t.reports with queue := s.reports.queue } = s.reports)
    ∧ (∀ f : Frame, (segmentLevels f).length = 256
        ∧ ∀ i, i < 256 → (segmentLevels f)[i]? = some (beInt16 (field f (10 + 2 * i) 2)))
    ∧ (∀ hi lo : Byte, beNat [hi, lo] = 256 * hi.toNat + lo.toNat
        ∧ beInt16 [hi, lo] = if hi.toNat < 128 then (256 * hi.toNat + lo.toNat : Int) else 256 * hi.toNat + lo.toNat - 65536)
    ∧ ∀ (table : List Correction) (raw : List Level), (unclampedAll table 0 raw).length = raw.length
        ∧ ∀ i r c, raw[i]? = some r → table[i / 32]? = some c →
            ∃ q : Int, (unclampedAll table 0 raw)[i]? = some (q + c.offset)
              ∧ 2 * (q * 32768 - r * c.gain).natAbs ≤ 32768
              ∧ (2 * (q * 32768 - r * c.gain).natAbs = 32768 → (r * (c.gain : Int)).natAbs < (q * 32768).natAbs)

/-- MGMT_REQ (R161, R167): a request addressed to the part, arriving whole, is counted on its lane (R152) and taken, its place in the node-bound store marked,
and REQUESTS_TAKEN counted; management appends it, or discards and counts it when its queue holds four. What the body's
bytes spell is an operand of the command (the model's choice, notes/assumptions/8.md). That the frame arrives in the order of the
link's byte moments is the model's deduction (notes/assumptions/18.md), that its arrival moves the byte time to its moment its
choice (notes/assumptions/4.md). -/
def Obligations.ManagementRequestTaken : Prop :=
  ∀ (f : Frame) (b : ReqBody) (s : State),
    Quiet s → arrives .hubSide f s.link = true → headerKind f = 0x61 → crcGood f = true →
    (headerAddress f = s.mgmt.nodeAddress ∨ headerAddress f = 255) → b.fitsKind (byteAt f 8) = true →
    ∃ t, exec (.mgmtReq f b) s = .next t
      ∧ t.link.hub = laneCounted f s.link.hub
      ∧ LinkBeside .hubSide (wholeAt s.link.hub) s.link t.link ∧ t.link.through = s.link.through
      ∧ t.link.store = s.link.store ++ [{ frame := f, taken := true }]
      ∧ t.link.requestsTaken = min 65535 (s.link.requestsTaken + 1)
      ∧ t.mgmt =
          (if s.mgmt.requests.length < 4 then
             { s.mgmt with requests := s.mgmt.requests ++
                 [⟨{ tag := BitVec.ofNat 16 (beNat (field f 6 2)), kind := byteAt f 8, address := headerAddress f,
                     lenCode := (byteAt f 2).toNat, bodyLen := beNat (field f 10 2) }, b⟩] }
           else { s.mgmt with dropped := min 65535 (s.mgmt.dropped + 1) })
      ∧ { t with link := s.link, mgmt := s.mgmt } = s

/-- HUB_TX_CHOICE (R156, R158, R186): between frames, an own frame only below the high mark, a response before a report, then
the head of the pass-through buffer, then FILL; the slot whose report is chosen leaves the queue, and is disabled or queued
again. What the pass-through buffer's occupancy counts (R155), and what each report kind carries after its header (R187). What
is sent, byte for byte: an own FILL (R147), and a response or report laid out as R148 has it, with the node address it was built
or composed with, its tag or slot number, kind code, completion code and body (R158, R166, R186). The byte time the choice moves to is the model's choice
(notes/assumptions/4.md), the bytes and lengths of the own frames' bodies are free values (its choice,
notes/assumptions/6.md), and that a frame whole at the same byte moment arrives before the choice is its deduction (notes/assumptions/18.md). -/
def Obligations.HubTransmitterChoice : Prop :=
  (∀ s : State, Quiet s → hubChooses s.link = true →
    let l := notePeak (reachByte s.link.hubTx.endsAt s.link)
    (∀ r rest, occupancy l < 3072 → s.mgmt.responses = r :: rest →
      exec .hubTxChoice s = .next
        { s with
          mgmt := { s.mgmt with responses := rest }
          link := notePeak { l with
            hubTx := { sending := .response r, endsAt := l.byteTime + r.frame.length }
            responsesSent := min 65535 (l.responsesSent + 1) } })
      ∧ (∀ q rest x, occupancy l < 3072 → s.mgmt.responses = [] → s.reports.queue = q :: rest →
        s.reports.slots[q.slot]? = some x →
        exec .hubTxChoice s = .next
          (let report : Report :=
             { address := s.mgmt.nodeAddress, slot := q.slot, kind := x.entry.kind,
               body := { time := s.clocks.plantTime, cause := q.cause, count := q.count,
                         content := reportContent { s with link := l } x.entry.kind } }
           { s with
             reports := { s.reports with
               queue := if x.entry.repeats = true ∧ x.entry.trigger = .now then enqueueSlot q.slot .now rest else rest
               slots := if x.entry.repeats = true then s.reports.slots
                 else s.reports.slots.set q.slot { entry := { x.entry with enabled := false }, due := none } }
             link := notePeak { l with
               hubTx := { sending := .report report, endsAt := l.byteTime + report.frame.length }
               reportsSent := min 65535 (l.reportsSent + 1) } }))
      ∧ (∀ f rest, (3072 ≤ occupancy l ∨ s.mgmt.responses = [] ∧ s.reports.queue = []) → l.through = f :: rest →
        exec .hubTxChoice s = .next
          { s with link := notePeak { l with
              through := rest, hubTx := { sending := .through f, endsAt := l.byteTime + f.length } } })
      ∧ ((3072 ≤ occupancy l ∨ s.mgmt.responses = [] ∧ s.reports.queue = []) → l.through = [] →
        exec .hubTxChoice s = .next
          { s with link := notePeak { l with
              hubTx := { sending := .fill s.mgmt.nodeAddress, endsAt := l.byteTime + 16 } } }))
    ∧ (∀ l : Link, hubChooses l = true ↔ inOrder l l.hubTx.endsAt = true
        ∧ ∀ r, l.node.rx = some r → l.hubTx.endsAt < r.start + headerLength r.header)
    ∧ (∀ (l : Link), reachByte l.hubTx.endsAt l = { l with byteTime := max l.byteTime l.hubTx.endsAt }
        ∧ notePeak l = { l with peak := max l.peak (occupancy l) })
    ∧ (∀ l : Link, occupancy l =
        (match l.hubTx.sending with
         | .through _ => l.hubTx.endsAt - l.byteTime
         | _ => 0)
        + (l.through.map List.length).sum
        + (match l.node.rx with
           | some r => if headerKind r.header = 0x00 then 0 else min (headerLength r.header) (l.byteTime - r.start)
           | none => 0))
    ∧ (∀ (r : Response) (r' : Report) (f : Frame) (address : Byte),
        let fill := (HubSent.fill address).bytes
        (HubSent.through f).bytes = f
          ∧ headerValid (fill.take 6) = true ∧ headerKind fill = 0x00 ∧ headerAddress fill = address
          ∧ fill.drop 6 = List.replicate 10 0
          ∧ (∃ body : List Byte, body.length ≤ 544 ∧ (r.body = .empty → body = [])
            ∧ LaidOut 0x62 r.address r.tag.toNat r.kind
                (match r.code with
                 | .ok => 0x00
                 | .badRequest => 0x01
                 | .badIndex => 0x02
                 | .badValue => 0x03
                 | .mapState => 0x04
                 | .searchActive => 0x05
                 | .legBusy => 0x06
                 | .noBand => 0x07
                 | .noLegs => 0x08
                 | .tableFull => 0x09
                 | .notFound => 0x0A
                 | .timeout => 0x0B
                 | .busy => 0x0C
                 | .imageBad => 0x0D) body r.frame
            ∧ (HubSent.response r).bytes = r.frame)
          ∧ ∃ body : List Byte, body.length ≤ 544
            ∧ LaidOut 0x63 r'.address (r'.slot % 65536)
                (match r'.kind with
                 | .bandSummary => 0x01
                 | .tallyTop => 0x02
                 | .searchResult => 0x03
                 | .linkCounters => 0x04
                 | .legStates => 0x05) 0x00 body r'.frame
            ∧ (HubSent.report r').bytes = r'.frame)
    ∧ ∀ s : State,
        (∃ lines : List BandLine,
            reportContent s .bandSummary =
                .bandSummary s.mgmt.settings.mode s.mgmt.settings.interval s.bands.lastTransfer lines.length lines
              ∧ lines.Pairwise (fun a b => a.band < b.band)
              ∧ ∀ y, y ∈ lines ↔ ∃ x, s.bands.bands[y.band]? = some x ∧ x.entry.enabled = true
                  ∧ y = { band := y.band, state := x.live.state, peak := x.live.peak, burst := x.live.burst
                          longest := x.live.longest, hotCount := x.live.hotCount, lastCount := x.live.lastCount
                          lastLongest := x.live.lastLongest, declares := x.live.declares })
          ∧ reportContent s .tallyTop = .tallyTop (tallySummary s) ((ranked s.tally.records).take 8)
          ∧ reportContent s .searchResult =
              .searchResult (s.search.record.map (·.state)) s.search.log.length s.search.log.getLast?
          ∧ (∃ v, groupView s .link = .link v ∧ reportContent s .linkCounters = .linkCounters v s.mgmt.dropped)
          ∧ reportContent s .legStates = .legStates s.tlm.entries.length
              ((s.tlm.entries.map (fun p =>
                ({ address := p.1, state := p.2.state, owner := p.2.owner
                   seconds := p.2.deadline.map (fun d => (d - s.clocks.elapsed + 999) / 1000)
                   reachable := p.2.reachable, timeouts := p.2.timeouts, failures := p.2.failures
                   lastReply := p.2.lastReply, retained := p.2.retained } : LegView))).take 32)
              (s.tlm.entries.length - 32)

/-- NODE_TX_CHOICE (R160): between frames, L FILLs in place of a taken request, else the head frame of the node-bound store
unchanged, else one FILL; what is sent, byte for byte. What the store's occupancy counts (R160). That the L FILLs are one
choice, all from the node address then in force, is the model's choice
(notes/assumptions/13.md), and so is the byte time the choice moves to (notes/assumptions/4.md); that a frame whole at the
same byte moment arrives before the choice is its deduction (notes/assumptions/18.md). -/
def Obligations.NodeTransmitterChoice : Prop :=
  (∀ s : State, Quiet s → nodeChooses s.link = true →
    let l := notePeak (reachByte s.link.nodeTx.endsAt s.link)
    exec .nodeTxChoice s = .next
      { s with link :=
          match s.link.store with
          | [] => { l with nodeTx := { sending := .fill s.mgmt.nodeAddress, endsAt := l.byteTime + 16 } }
          | x :: rest =>
            { l with
              store := rest
              nodeTx := { sending := if x.taken then .fills (x.frame.length / 16) s.mgmt.nodeAddress else .frame x.frame
                          endsAt := l.byteTime + x.frame.length } } })
    ∧ (∀ l : Link, nodeChooses l = true ↔ inOrder l l.nodeTx.endsAt = true
        ∧ ∀ r, l.hub.rx = some r → l.nodeTx.endsAt < r.start + headerLength r.header)
    ∧ (∀ (f : Frame) (count : Nat) (address : Byte),
        let fill := (NodeSent.fill address).bytes
        (NodeSent.frame f).bytes = f ∧ (NodeSent.fills count address).bytes = (List.replicate count fill).flatten
          ∧ headerValid (fill.take 6) = true ∧ headerKind fill = 0x00 ∧ headerAddress fill = address
          ∧ fill.drop 6 = List.replicate 10 0)
    ∧ ∀ l : Link, storeOccupancy l =
        (match l.nodeTx.sending with
         | .fill _ => 0
         | _ => l.nodeTx.endsAt - l.byteTime)
        + (l.store.map (fun x => x.frame.length)).sum
        + (match l.hub.rx with
           | some r => if headerKind r.header = 0x00 then 0 else min (headerLength r.header) (l.byteTime - r.start)
           | none => 0)

/-! ## Timers -/

/-- The four timers that restart themselves: the CRC interval (R153), aging (R60), the band interval (R94, R95) and a
slot's period (R184). Each restarts with the span in force. That each expiry carries the elapsed-time base to its moment is
the model's choice (notes/assumptions/4.md). Period timers that expire together queue their slots in ascending slot number
(R182): a slot's timer expires when no other runs to an earlier moment, nor a lower slot's to the same one. -/
def Obligations.TimerExpiries : Prop :=
  (∀ s : State, Quiet s →
      let now := max s.clocks.elapsed s.link.crcDue
      let judged := fun (x : RxLane) => { x with crc :=
        { interval := 0, lastInterval := x.crc.interval, degraded := decide (s.mgmt.settings.crcThreshold ≤ x.crc.interval) } }
      exec .crcIntervalExpiry s = .next
        { s with
          clocks := { s.clocks with elapsed := now }
          link := { s.link with node := judged s.link.node, hub := judged s.link.hub, crcDue := now + 1000 } })
    ∧ (∀ s : State, Quiet s →
      let now := max s.clocks.elapsed s.tally.agingDue
      exec .agingExpiry s = .next
        { s with
          clocks := { s.clocks with elapsed := now }
          tally := { s.tally with
            records := (s.tally.records.map (fun p => (p.1, { p.2 with votes := p.2.votes / 2 }))).filter
              (fun p => p.2.votes != 0)
            agingDue := now + s.mgmt.settings.aging * 1000 } })
    ∧ (∀ (due : Nat) (s : State), Quiet s → s.bands.intervalDue = some due →
      let now := max s.clocks.elapsed due
      exec .bandIntervalExpiry s = .next
        { s with
          clocks := { s.clocks with elapsed := now }
          bands :=
            { bands := s.bands.bands.map (fun x =>
                { x with live := { x.live with lastCount := x.live.hotCount, lastLongest := x.live.longest,
                                               hotCount := 0, longest := 0 } })
              lastTransfer := some s.clocks.plantTime
              intervalDue := if s.mgmt.settings.mode = .auto then some (now + s.mgmt.settings.interval * 1000) else none } })
    ∧ (∀ (n due p : Nat) (x : ReportSlot) (s : State), Quiet s → s.reports.slots[n]? = some x → x.due = some due →
      (∀ (m d : Nat) (y : ReportSlot), s.reports.slots[m]? = some y → y.due = some d → due < d ∨ (due = d ∧ n ≤ m)) →
      x.entry.enabled = true → x.entry.trigger = .periodic → x.entry.period = some p →
      let now := max s.clocks.elapsed due
      exec (.periodTimerExpiry n) s = .next
        { s with
          clocks := { s.clocks with elapsed := now }
          reports := { s.reports with
            slots := s.reports.slots.set n { x with due := some (now + p * 1000) }
            queue := enqueueSlot n .periodic s.reports.queue } })

/-! ## Echo analysis -/

/-- ANALYSIS_BEGIN (R28, R29): the oldest entry's analysis begins with the channel values as they stand, the entry staying
at the head; the first condition of R29 that holds fixes its outcome. An echo is suppressed (R30) when an element on the
path of the station's tap, the tap counted, carries a leg unit whose tracking entry is not PASS. -/
def Obligations.AnalysisBegin : Prop :=
  (∀ (d : Descriptor) (rest : List Descriptor) (s : State), Quiet s → s.echo.queue = d :: rest → s.echo.analysis = none →
    exec .analysisBegin s = .next
      { s with echo := { s.echo with
          analysis := some
            { taken := s.echo.channels[d.channel]?
              mapLeft := false
              stage :=
                if s.map.state ≠ .ready then .fixed .mapNotReady
                else if (s.echo.channels[d.channel]?).map (·.enabled) ≠ some true then .fixed .channelOff
                else
                  match (s.map.attachments.find? (fun p => p.2.station == d.station)).filter
                      (fun p => p.2.validity == .valid), s.echo.channels[d.channel]? with
                  | none, _ => .fixed .unknownStation
                  | _, none => .fixed .channelOff
                  | some (i, a), some c =>
                    if suppressed s a.element then .fixed .suppressed
                    else if eqInvalid (energies d.taps) then .fixed .eqInvalid
                    else
                      match echoTap (energies d.taps) c.threshold with
                      | none => .fixed .clean
                      | some k => .echo i a.element a.port (echoFigures (energies d.taps) k c.rate.multiplier) } } })
    ∧ (RateClass.r512.multiplier = 1 ∧ RateClass.r256.multiplier = 2 ∧ RateClass.r128.multiplier = 4)
    ∧ ∀ (s : State) (tap : Nat), suppressed s tap = true ↔
        ∃ g ∈ pathOf s.map.elements tap, legOf s.map.elements g ≠ 0
          ∧ ∃ e, tableGet s.tlm.entries (legOf s.map.elements g) = some e ∧ e.state ≠ .pass

/-- ANALYSIS_COMPLETION (R28, R31, R32, R42): the entry leaves the queue and one outcome is counted, in the counter that R32
names for it alone. An outcome fixed at the
beginning stands; an echo whose map has left READY is MAP_NOT_READY, one whose attachment entry has changed
UNKNOWN_STATION, one whose tap is suppressed SUPPRESSED; one that passes the hand-off check is placed, its votes cast and
the latest echo record replaced. -/
def Obligations.AnalysisCompletion : Prop :=
  (∀ (c : IntakeCounters) (o : AnalysisOutcome), countOutcome o c =
    match o with
    | .mapNotReady => { c with mapNotReady := min 65535 (c.mapNotReady + 1) }
    | .channelOff => { c with channelOff := min 65535 (c.channelOff + 1) }
    | .unknownStation => { c with unknownStation := min 65535 (c.unknownStation + 1) }
    | .suppressed => { c with suppressed := min 65535 (c.suppressed + 1) }
    | .eqInvalid => { c with eqInvalid := min 65535 (c.eqInvalid + 1) }
    | .clean => { c with clean := min 65535 (c.clean + 1) }
    | .result .placed => { c with placed := min 65535 (c.placed + 1) }
    | .result .drop => { c with drop := min 65535 (c.drop + 1) }
    | .result .span => { c with span := min 65535 (c.span + 1) }
    | .result .beyond => { c with beyond := min 65535 (c.beyond + 1) })
    ∧ ∀ (a : Analysis) (d : Descriptor) (rest : List Descriptor) (s : State),
    Quiet s → s.echo.analysis = some a → s.echo.queue = d :: rest →
    (∀ o, a.stage = .fixed o →
      exec .analysisCompletion s = .next
        { s with echo := { s.echo with queue := rest, analysis := none, counters := countOutcome o s.echo.counters } })
      ∧ (∀ i e p fig, a.stage = .echo i e p fig → (a.mapLeft = true ∨ s.map.state ≠ .ready) →
        exec .analysisCompletion s = .next
          { s with echo := { s.echo with
              queue := rest, analysis := none, counters := countOutcome .mapNotReady s.echo.counters } })
      ∧ (∀ i e p fig x, a.stage = .echo i e p fig → a.mapLeft = false → s.map.state = .ready →
        tableGet s.map.attachments i = some x → x.station = d.station → x.validity = .valid → x.element = e → x.port = p →
        suppressed s e = false →
        let placed := place s.map.elements e x.drop s.mgmt.settings.window fig.time
        let voted := castVotes
          { index := i, ratio := fig.ratio, time := s.clocks.plantTime, promote := s.mgmt.settings.promote } placed.2 s
        exec .analysisCompletion s = .next
          { voted with echo :=
              { s.echo with
                queue := rest, analysis := none
                counters := countOutcome (.result placed.1) s.echo.counters
                latest := some { station := d.station, channel := d.channel, figures := fig, result := placed.1 } } })
      ∧ (∀ i e p fig, a.stage = .echo i e p fig → a.mapLeft = false → s.map.state = .ready →
        (∀ x, tableGet s.map.attachments i = some x →
          ¬ (x.station = d.station ∧ x.validity = .valid ∧ x.element = e ∧ x.port = p)) →
        exec .analysisCompletion s = .next
          { s with echo := { s.echo with
              queue := rest, analysis := none, counters := countOutcome .unknownStation s.echo.counters } })
      ∧ (∀ i e p fig x, a.stage = .echo i e p fig → a.mapLeft = false → s.map.state = .ready →
        tableGet s.map.attachments i = some x → x.station = d.station → x.validity = .valid → x.element = e → x.port = p →
        suppressed s e = true →
        exec .analysisCompletion s = .next
          { s with echo := { s.echo with
              queue := rest, analysis := none, counters := countOutcome .suppressed s.echo.counters } })

/-- The echo arithmetic (R35 to R41): the energy of a tap, when the equalizer is invalid, which tap is the echo tap, and the ratio, offset, delay
and one-way time of an echo, with the two roundings by their defining inequalities. -/
def Obligations.EchoArithmetic : Prop :=
  (∀ (taps : List (Int × Int)) (j : Nat) (i q : Int), taps[j]? = some (i, q) → energyAt (energies taps) j = i * i + q * q)
    ∧ (∀ es : List Int, eqInvalid es = true ↔
      energyAt es 8 = 0 ∨ ∃ j, j < 24 ∧ j ≠ 8 ∧ energyAt es 8 ≤ energyAt es j)
    ∧ (∀ (es : List Int) (threshold k : Nat), echoTap es threshold = some k ↔
        9 ≤ k ∧ k ≤ 23 ∧ threshold * energyAt es 8 ≤ energyAt es k * 65536
          ∧ ∀ j, 9 ≤ j → j ≤ 23 → threshold * energyAt es 8 ≤ energyAt es j * 65536 →
              energyAt es j ≤ energyAt es k ∧ (j < k → energyAt es j < energyAt es k))
    ∧ ∀ (es : List Int) (k m : Nat), 9 ≤ k → k ≤ 23 → 0 < energyAt es 8 → (∀ j, 0 ≤ energyAt es j) → 0 < energyAt es k →
        let f := echoFigures es k m
        let a := if k = 9 then 0 else energyAt es (k - 1)
        let c := if k = 23 then 0 else energyAt es (k + 1)
        let den := a + energyAt es k + c
        let num := 16 * (c - a)
        f.tap = k
          ∧ (f.ratio : Int) = min 65535 (energyAt es k * 65536 / energyAt es 8)
          ∧ 2 * (f.offset16 * den - num).natAbs ≤ den.natAbs
          ∧ (2 * (f.offset16 * den - num).natAbs = den.natAbs → num.natAbs < (f.offset16 * den).natAbs)
          ∧ f.delay16 = 16 * ((k : Int) - 8) + f.offset16
          ∧ 512 * f.time ≤ 2 * (f.delay16 * m * 15625) + 256 ∧ 2 * (f.delay16 * m * 15625) + 256 < 512 * f.time + 512

/-! ## Placement and the tally -/

/-- Placement (R43 to R48): the walk takes every element on the tap's path, in a valid map up to element 0 and element 0
included, with its cumulative delay; the result and the votes follow by where the time falls among the delays. -/
def Obligations.Placement : Prop :=
  ∀ (t : Table Element) (tap drop window : Nat) (time : Int),
    let walk := cumulatives t drop (pathOf t tap)
    let near := walk.filter (fun p => decide (((p.2 : Int) - time).natAbs ≤ window))
    walk[0]? = some (tap, drop) ∧ walk.map Prod.fst = pathOf t tap
      ∧ (validate t = none → (∃ e, tableGet t tap = some e) → ∃ c, walk.getLast? = some (0, c))
      ∧ (∀ i e c, walk[i]? = some (e, c) → ∀ (e' c' : Nat), walk[i + 1]? = some (e', c') →
          (tableGet t e).bind (·.parent) = some e' ∧ some c' = (tableGet t e).map (fun x => c + x.delay))
      ∧ (time < (drop : Int) - window → place t tap drop window time = (.drop, [(tap, .drop)]))
      ∧ ((drop : Int) - window ≤ time → near ≠ [] →
          place t tap drop window time = (.placed, near.map (fun p => (p.1, .at))))
      ∧ ((drop : Int) - window ≤ time → near = [] → (∀ e c, walk.getLast? = some (e, c) → (c : Int) ≤ time) →
          place t tap drop window time = (.beyond, []))
      ∧ (∀ (i e c e' c' : Nat), (drop : Int) - window ≤ time → near = [] → walk[i]? = some (e, c) → walk[i + 1]? = some (e', c') →
          (c : Int) < time → time < c' → (∀ (j x d : Nat), i < j → walk[j]? = some (x, d) → c' ≤ d) →
          place t tap drop window time = (.span, [(e, .span)]))

/-- One vote (R50 to R54, R56): an existing record is changed, a vacant slot filled, a victim replaced, or the vote dropped
and counted with a TALLY_FULL event. The votes of a placement are taken one after another in walk order, each on the tally as
the earlier ones have left it, with one list of the slots they have touched; the events they raise reach the report slots in
the order raised (R56, R65). The lowest vacant slot has every lower one occupied, and there is none when all 256 are
occupied (R52 to R54). -/
def Obligations.Votes : Prop :=
  (∀ (b : Ballot) (keys : List (Nat × Place)) (s : State),
    let p := keys.foldl (vote b) { tally := s.tally, touched := [], events := [] }
    castVotes b keys s = { s with tally := p.tally, reports := p.events.foldl raiseEvent s.reports })
    ∧ (∀ (t : Table TallyRecord) (bound : Nat),
        (∀ i, lowestFree t bound 0 = some i ↔ i < bound ∧ tableGet t i = none ∧ ∀ j, j < i → tableGet t j ≠ none)
          ∧ (lowestFree t bound 0 = none ↔ ∀ j, j < bound → tableGet t j ≠ none))
    ∧ ∀ (b : Ballot) (p : Poll) (k : Nat × Place),
    let records := p.tally.records
    let fresh : TallyRecord :=
      { element := k.1, place := k.2, votes := 1, voters := [b.index], state := stateFor b.promote [b.index],
        coincident := false, strongest := b.ratio, firstVote := b.time, lastVote := b.time }
    let raised : List Event := if stateFor b.promote [b.index] = .suspect then [.newSuspect] else []
    (∀ slot r, records.find? (fun x => x.2.element == k.1 && x.2.place == k.2) = some (slot, r) →
        let joins := b.index ∉ r.voters ∧ r.voters.length < 8
        let voters := if joins then r.voters ++ [b.index] else r.voters
        let state := if joins then stateFor b.promote voters else r.state
        vote b p k =
          { tally := { p.tally with
              records := tableSet records slot
                { r with votes := min 65535 (r.votes + 1), voters := voters, state := state, lastVote := b.time,
                         strongest := max r.strongest b.ratio } }
            touched := slot :: p.touched
            events := p.events ++ if joins ∧ r.state = .watch ∧ state = .suspect then [.newSuspect] else [] })
      ∧ (∀ slot, records.find? (fun x => x.2.element == k.1 && x.2.place == k.2) = none →
        lowestFree records 256 0 = some slot →
        vote b p k =
          { tally := { p.tally with records := tableSet records slot fresh }
            touched := slot :: p.touched
            events := p.events ++ raised })
      ∧ (∀ slot v, records.find? (fun x => x.2.element == k.1 && x.2.place == k.2) = none →
        lowestFree records 256 0 = none → victim records p.touched = some (slot, v) →
        vote b p k =
          { tally := { p.tally with records := tableSet records slot fresh, replacement := min 65535 (p.tally.replacement + 1) }
            touched := slot :: p.touched
            events := p.events ++ raised })
      ∧ (records.find? (fun x => x.2.element == k.1 && x.2.place == k.2) = none →
        lowestFree records 256 0 = none → victim records p.touched = none →
        vote b p k =
          { p with
            tally := { p.tally with overflow := min 65535 (p.tally.overflow + 1) }
            events := p.events ++ [.tallyFull] })
      ∧ (∀ slot v, victim records p.touched = some (slot, v) →
        (slot, v) ∈ records ∧ v.state = .watch ∧ slot ∉ p.touched
          ∧ ∀ x ∈ records, x.2.state = .watch → x.1 ∉ p.touched →
              lexLess [x.2.votes, x.2.lastVote.toNat, x.2.element, x.2.place.rank]
                [v.votes, v.lastVote.toNat, v.element, v.place.rank] = false)
      ∧ (victim records p.touched = none → ∀ x ∈ records, x.2.state = .watch → x.1 ∈ p.touched)

/-! ## Band watch -/

/-- One band at a sweep hand-off (R86 to R93): the peak and the class, the runs, the state, the burst lengths, the counts,
and the events of a change of state; a disabled band is passed over. The hand-off raises the events of the bands in
ascending band number (`classified`, R90); with no search running nothing but the bands and the report queue changes. -/
def Obligations.BandClassification : Prop :=
  (∀ (levels : List Level) (n : Nat) (s : State), (handOff n levels s).bands =
      { s.bands with
        bands := s.bands.bands.map (fun x =>
          if x.entry.enabled = true then
            { x with live := liveAfter x.entry ((levels.drop x.entry.start).take (x.entry.stop + 1 - x.entry.start)) x.live }
          else x) })
    ∧ (∀ bins : List Level, bins ≠ [] → peakOf bins ∈ bins ∧ ∀ x ∈ bins, x ≤ peakOf bins)
    ∧ (∀ (b : Band) (bins : List Level) (v : BandLive), bins ≠ [] →
        let above := peakOf bins - b.floor
        let hot := b.declareMargin ≤ above
          ∧ b.minBins ≤ (bins.filter (fun x => decide (b.floor + b.declareMargin ≤ x))).length
        let cold := above < b.clearMargin
        let w := liveAfter b bins v
        w.peak = some (peakOf bins)
          ∧ (hot → w.hotRun = min 15 (v.hotRun + 1) ∧ w.coldRun = 0 ∧ w.burst = min 65535 (v.burst + 1)
              ∧ w.longest = max v.longest w.burst ∧ w.hotCount = min 65535 (v.hotCount + 1))
          ∧ (¬ hot → cold → w.hotRun = 0 ∧ w.coldRun = min 15 (v.coldRun + 1) ∧ w.burst = 0 ∧ w.longest = v.longest
              ∧ w.hotCount = v.hotCount)
          ∧ (¬ hot → ¬ cold → w.hotRun = 0 ∧ w.coldRun = 0 ∧ w.burst = 0 ∧ w.longest = v.longest ∧ w.hotCount = v.hotCount)
          ∧ (w.state = .declared ↔ (v.state = .clear ∧ b.declareCount ≤ w.hotRun) ∨ (v.state = .declared ∧ w.coldRun < b.clearCount))
          ∧ w.declares = (if v.state = .clear ∧ w.state = .declared then min 65535 (v.declares + 1) else v.declares)
          ∧ w.lastCount = v.lastCount ∧ w.lastLongest = v.lastLongest)
    ∧ (∀ (n sweep : Nat) (b : Band) (v w : BandLive) (peak : Level), w.peak = some peak →
        bandEvent n sweep b v w =
          (if v.state = .clear ∧ w.state = .declared then [.declare n sweep peak]
           else if v.state = .declared ∧ w.state = .clear ∧ b.mode = .both then [.clear n sweep]
           else []))
    ∧ ∀ (levels : List Level) (n : Nat) (s : State), s.search.record = none → handOff n levels s = classified n levels s

/-! ## Telemetry and search -/

/-- TLM_TRANSACTION_START (R106, R108, R109, R113): on a free line the search's RELEASE goes first, then the head of the
direct queue, then the search's STEP, a STEP only while every entry is PASS. The transaction's command frame is sent on the
line, it is counted, its watchdog and its entry's lapse deadline are set. The deadline covers the unit's hold whenever the unit
took the STEP within the watchdog span, at most 510 ms, be the unit's timekeeping up to 1490 ms slower over the hold
(R103; the unit beside the part, its hold in ms: notes/assumptions/31.md). With a transaction in progress, or with none that
may start, nothing changes. That the search's request is gone from where it waited at the start is the model's deduction
(R114 says so of its end; notes/assumptions/14.md). That nothing changes where none may start (notes/assumptions/2.md) and
that the line holds the frame's bytes from then on (notes/assumptions/16.md) are its choices. -/
def Obligations.TransactionStart : Prop :=
  ∀ s : State,
    let free := ∀ p ∈ s.tlm.entries, p.2.state = .pass
    let started := fun (who : Requester) (a : Nat) (c : TlmCommand) =>
      let changed := fun (e : TrackEntry) =>
        match c with
        | .step _ hold =>
          { e with state := .stepSent, owner := some who, deadline := some (s.clocks.elapsed + (hold + 2) * 1000) }
        | .release => if e.state = .pass then e else { e with state := .releaseSent }
        | .query => e
      { s with tlm := { s.tlm with
          entries := s.tlm.entries.map (fun p => if p.1 = a then (p.1, changed p.2) else p)
          transaction := some { address := a, command := c, requester := who, sentAt := s.clocks.elapsed,
                                watchdog := s.clocks.elapsed + 2 * s.mgmt.settings.watchdog }
          searchRequest := if who = .search then none else s.tlm.searchRequest
          directQueue := if who = .direct then s.tlm.directQueue.tail else s.tlm.directQueue
          assembling := []
          line :=
            (let bytes : List Byte :=
               match c with
               | .step level hold => [0xD1, BitVec.ofNat 8 a, 0x01, BitVec.ofNat 8 level, BitVec.ofNat 8 hold]
               | .release => [0xD1, BitVec.ofNat 8 a, 0x02, 0x00, 0x00]
               | .query => [0xD1, BitVec.ofNat 8 a, 0x03, 0x00, 0x00]
             bytes ++ [-(bytes.foldl (· + ·) 0)])
          sent := min 65535 (s.tlm.sent + 1) } }
    (s.tlm.transaction = none → ∀ a, s.tlm.searchRequest = some { address := a, command := .release } →
      exec .tlmTransactionStart s = .next (started .search a .release))
      ∧ (s.tlm.transaction = none →
        ∀ d rest, (∀ a, s.tlm.searchRequest ≠ some { address := a, command := .release }) → s.tlm.directQueue = d :: rest →
        (free ∨ ∀ l k, d.command ≠ .step l k) → exec .tlmTransactionStart s = .next (started .direct d.address d.command))
      ∧ (s.tlm.transaction = none →
        ∀ a l k, s.tlm.searchRequest = some { address := a, command := .step l k } → s.tlm.directQueue = [] → free →
        exec .tlmTransactionStart s = .next (started .search a (.step l k)))
      ∧ (s.tlm.transaction ≠ none → exec .tlmTransactionStart s = .next s)
      ∧ ((∀ a, s.tlm.searchRequest ≠ some { address := a, command := .release }) →
        (∀ d rest, s.tlm.directQueue = d :: rest → (∃ l k, d.command = .step l k) ∧ ¬ free) →
        (∀ q, s.tlm.searchRequest = some q → (∃ l k, q.command = .step l k) ∧ ¬ free) →
        exec .tlmTransactionStart s = .next s)
      ∧ (s.mgmt.settings.watchdog ≤ 255 → ∀ (u : LegUnit) (level hold taken waited : Nat),
        let due := s.clocks.elapsed + (hold + 2) * 1000
        s.clocks.elapsed ≤ taken → taken ≤ s.clocks.elapsed + 2 * s.mgmt.settings.watchdog → due ≤ taken + waited + 1490 →
        taken ≤ s.clocks.elapsed + 510 ∧ (((u.after (.step level hold)).waits waited).expires).step = none)

/-- TLM_REPLY_FRAME and BYTE_HEARD (R105): 0xD2 begins a frame and six more bytes complete it; other bytes are discarded;
a complete frame that is valid for the waiting transaction ends it, every other is ignored and counted. A valid reply to a
direct command answers its request with the entry as the outcome leaves it (R118). A valid reply to the search's STEP in
STEPPING sets the measure deadline and begins SETTLE, or MEASURE when Sk is 0 (R127), and in ENDING posts the leg's RELEASE
(R138); one to its RELEASE takes up the next leg in RELEASING (R130) and ends the search in ENDING (R138). The entry's
change is `entryAfter` (R108, R109, R111); an outcome that does not concern the current leg, or that comes when the search has ended
or no longer waits for it, changes the entry alone (R130). A frame is
valid when its sum, its address and its reply code fit the waiting command (R104, R105). A leg unit as the line's partner:
which frames it takes, what a STEP, a RELEASE and a QUERY make of it and what it answers, that it ignores every other frame in
silence, and how its hold runs out (R101 to R103); it takes the frame of a transaction to its address, and its reply is valid
for that transaction. The taking up is bounded at 80 legs and levels (the model's deduction, notes/assumptions/23.md); that the
unit's state stands beside State, its hold in ms, is the model's choice (notes/assumptions/31.md). -/
def Obligations.ReplyFrames : Prop :=
  (∀ (tx : Transaction) (f : List Byte) (reply : Reply), validReply tx f = some reply ↔
      f.length = 7 ∧ byteAt f 0 = 0xD2 ∧ (f.map (·.toNat)).sum % 256 = 0 ∧ (byteAt f 1).toNat = tx.address
        ∧ (((∃ level hold, tx.command = .step level hold) ∧ byteAt f 2 = 0x81 ∧ reply.code = .ackStep)
            ∨ (tx.command = .release ∧ byteAt f 2 = 0x82 ∧ reply.code = .ackRelease)
            ∨ (tx.command = .release ∧ byteAt f 2 = 0x83 ∧ reply.code = .releasedAlready)
            ∨ (tx.command = .query ∧ byteAt f 2 = 0x84 ∧ reply.code = .state))
        ∧ reply.unitState = byteAt f 3 ∧ reply.level = byteAt f 4 ∧ reply.hold = byteAt f 5)
    ∧ (∀ (b : Byte) (s : State), Quiet s → s.tlm.assembling = [] →
      exec (.byteHeard b) s = .next
        (if b = 0xD2 then { s with tlm := { s.tlm with assembling := [b] } } else s))
    ∧ (∀ (b : Byte) (s : State), Quiet s → s.tlm.assembling ≠ [] → s.tlm.assembling.length < 6 →
      exec (.byteHeard b) s = .next { s with tlm := { s.tlm with assembling := s.tlm.assembling ++ [b] } })
    ∧ (∀ (b : Byte) (s : State), Quiet s → s.tlm.assembling.length = 6 →
      (∀ tx, s.tlm.transaction = some tx → validReply tx (s.tlm.assembling ++ [b]) = none) →
      exec (.byteHeard b) s = .next
        { s with tlm := { s.tlm with assembling := [], ignored := min 65535 (s.tlm.ignored + 1) } })
    ∧ (∀ (b : Byte) (s : State), Quiet s → s.tlm.assembling.length = 6 → byteAt s.tlm.assembling 0 = 0xD2 →
      exec (.byteHeard b) s = exec (.tlmReplyFrame (s.tlm.assembling ++ [b])) s)
    ∧ (∀ (f : List Byte) (s : State), Quiet s → f.length = 7 → byteAt f 0 = 0xD2 → s.tlm.assembling = [] →
      (∀ tx, s.tlm.transaction = some tx → validReply tx f = none) →
      exec (.tlmReplyFrame f) s = .next { s with tlm := { s.tlm with ignored := min 65535 (s.tlm.ignored + 1) } })
    ∧ (∀ (f : List Byte) (tx : Transaction) (reply : Reply) (s : State), Quiet s → f.length = 7 → byteAt f 0 = 0xD2 →
        s.tlm.assembling = f.take s.tlm.assembling.length → s.tlm.transaction = some tx → validReply tx f = some reply →
        let u := { s with tlm := { s.tlm with
          entries := entriesAfter tx (some reply) s, transaction := none, assembling := [] } }
        (∀ r rest e, tx.requester = .direct → s.mgmt.requests = r :: rest → tableGet s.tlm.entries tx.address = some e →
            let e' := entryAfter tx.command (some reply) s.clocks.plantTime e
            exec (.tlmReplyFrame f) s = .next
              { u with mgmt := answered r .ok (.direct tx.address (some reply) (some (e'.state, e'.reachable))) s.mgmt })
          ∧ (tx.requester = .search → s.search.record = none → exec (.tlmReplyFrame f) s = .next u)
          ∧ (∀ x l, tx.requester = .search → s.search.record = some x → x.legs[x.current]? = some l →
            (l.address ≠ tx.address → exec (.tlmReplyFrame f) s = .next u)
              ∧ (x.state ≠ .stepping → x.state ≠ .releasing → x.state ≠ .ending → exec (.tlmReplyFrame f) s = .next u)
              ∧ (∀ level hold, l.address = tx.address → tx.command = .step level hold → x.state = .stepping →
                  let y := { x with measureDeadline := some (tx.sentAt + x.hold * 1000) }
                  exec (.tlmReplyFrame f) s = .next
                    { u with search := { s.search with
                        record := some (if 1 ≤ x.sk then { y with state := .settle, settle := x.sk }
                          else { y with state := .measure, peakSum := 0, collected := 0 }) } })
              ∧ (∀ level hold, l.address = tx.address → tx.command = .step level hold → x.state = .ending →
                  exec (.tlmReplyFrame f) s = .next
                    { u with
                      search := { s.search with record := some { x with measureDeadline := none } }
                      tlm := { u.tlm with searchRequest := some { address := l.address, command := .release } } })
              ∧ (l.address = tx.address → tx.command = .release → x.state = .releasing →
                  exec (.tlmReplyFrame f) s = .next
                    (settle (takeUp s.map.elements u.tlm.entries 80 { x with current := x.current + 1 }) u))
              ∧ (∀ cause, l.address = tx.address → tx.command = .release → x.state = .ending → x.cause = some cause →
                  exec (.tlmReplyFrame f) s = .next (endSearch x cause x.head u))))
    ∧ (∀ (unit : LegUnit) (f : List Byte) (c : TlmCommand), unit.takes f = some c ↔
      f.length = 6 ∧ byteAt f 0 = 0xD1 ∧ (f.map (·.toNat)).sum % 256 = 0 ∧ (byteAt f 1).toNat = unit.address
        ∧ ((∃ level hold, byteAt f 2 = 0x01 ∧ c = .step level hold ∧ level = (byteAt f 3).toNat ∧ hold = (byteAt f 4).toNat
              ∧ 1 ≤ level ∧ level ≤ 3 ∧ 1 ≤ hold ∧ hold ≤ 60)
            ∨ (byteAt f 2 = 0x02 ∧ c = .release)
            ∨ (byteAt f 2 = 0x03 ∧ c = .query)))
    ∧ (∀ (unit : LegUnit) (f : List Byte),
      (unit.takes f = none → unit.hears f = (unit, none))
        ∧ (∀ c, unit.takes f = some c →
          let after : LegUnit := { unit with
            step := match c with
              | .step level hold => some { level := level, remaining := hold * 1000 }
              | .release => none
              | .query => unit.step }
          let code : Byte := match c with
            | .step _ _ => 0x81
            | .release => if unit.step = none then 0x83 else 0x82
            | .query => 0x84
          let bytes : List Byte := [0xD2, BitVec.ofNat 8 unit.address, code]
            ++ (match after.step with
              | none => [0x00, 0x00, 0x00]
              | some p => [0x01, BitVec.ofNat 8 p.level, BitVec.ofNat 8 ((p.remaining + 999) / 1000)])
          unit.hears f = (after, some (bytes ++ [-(bytes.foldl (· + ·) 0)]))))
    ∧ (∀ (address level remaining ms : Nat),
      let stepped := fun r => ({ address := address, step := some { level := level, remaining := r } } : LegUnit)
      let passing : LegUnit := { address := address, step := none }
      (ms ≤ remaining → (stepped remaining).waits ms = stepped (remaining - ms))
        ∧ (remaining < ms → (stepped remaining).waits ms = passing)
        ∧ (stepped 0).expires = passing ∧ (0 < remaining → (stepped remaining).expires = stepped remaining)
        ∧ passing.waits ms = passing ∧ passing.expires = passing
        ∧ (stepped remaining).poweredUp = passing ∧ passing.poweredUp = passing)
    ∧ ∀ (unit : LegUnit) (tx : Transaction), tx.address = unit.address → 1 ≤ tx.address → tx.address ≤ 254 →
        (∀ level hold, tx.command = .step level hold → 1 ≤ level ∧ level ≤ 3 ∧ 1 ≤ hold ∧ hold ≤ 60) →
        unit.takes (commandFrame tx.address tx.command) = some tx.command
          ∧ ∃ (answer : List Byte) (reply : Reply),
            unit.hears (commandFrame tx.address tx.command) = (unit.after tx.command, some answer)
              ∧ validReply tx answer = some reply
              ∧ [reply.unitState, reply.level, reply.hold] = (unit.after tx.command).report

/-- TLM_WATCHDOG_EXPIRY (R106, R109, R111): the transaction ends TIMEOUT and is counted, the entry's timeouts rise, the third
in a row making it UNREACHABLE, and RELEASE_SENT becomes UNCONFIRMED (`entryAfter`). A direct command's request is answered
TIMEOUT (R118). The search's STEP makes its leg UNKNOWN and posts a RELEASE (R127), or posts it alone in ENDING (R138); its
RELEASE leads to RELEASE_WAIT (R130), and in ENDING the search waits on for the lapse (R138). A timeout that comes when the
search has ended or no longer waits for it changes the entry alone (R130). That the expiry carries the
elapsed-time base to its moment is the model's choice (notes/assumptions/4.md); with no transaction in progress there is no
expiry (its choice, notes/assumptions/2.md). -/
def Obligations.WatchdogExpiry : Prop :=
  (∀ s : State, s.tlm.transaction = none → exec .tlmWatchdogExpiry s = .next s)
    ∧ (∀ (c : TlmCommand) (now : Word32) (e : TrackEntry),
        let e' := entryAfter c none now e
        e'.timeouts = min 3 (e.timeouts + 1) ∧ e'.failures = min 65535 (e.failures + 1)
          ∧ e'.reachable = (e.reachable && decide (e.timeouts + 1 < 3))
          ∧ e'.state = (if c = .release ∧ e.state = .releaseSent then .unconfirmed else e.state)
          ∧ e'.owner = e.owner ∧ e'.deadline = e.deadline ∧ e'.lastReply = e.lastReply ∧ e'.retained = e.retained)
    ∧ ∀ (tx : Transaction) (s : State), Quiet s → s.tlm.transaction = some tx →
        let u := { s with
          clocks := { s.clocks with elapsed := max s.clocks.elapsed tx.watchdog }
          tlm := { s.tlm with
            entries := entriesAfter tx none s, transaction := none, timeout := min 65535 (s.tlm.timeout + 1) } }
        (∀ r rest e, tx.requester = .direct → s.mgmt.requests = r :: rest → tableGet s.tlm.entries tx.address = some e →
            let e' := entryAfter tx.command none s.clocks.plantTime e
            exec .tlmWatchdogExpiry s = .next
              { u with mgmt := answered r .timeout (.direct tx.address none (some (e'.state, e'.reachable))) s.mgmt })
          ∧ (tx.requester = .search → s.search.record = none → exec .tlmWatchdogExpiry s = .next u)
          ∧ (∀ x l, tx.requester = .search → s.search.record = some x → x.legs[x.current]? = some l →
            (l.address ≠ tx.address → exec .tlmWatchdogExpiry s = .next u)
              ∧ (x.state ≠ .stepping → x.state ≠ .releasing → x.state ≠ .ending → exec .tlmWatchdogExpiry s = .next u)
              ∧ (∀ level hold, l.address = tx.address → tx.command = .step level hold → x.state = .stepping →
                  exec .tlmWatchdogExpiry s = .next
                    { u with
                      tlm := { u.tlm with searchRequest := some { address := l.address, command := .release } }
                      search := { s.search with
                        record := some
                          { x with
                            state := .releasing, measureDeadline := none
                            legs := x.legs.set x.current { l with cls := some .unknown, drop := none }
                            unknowns := if x.unknowns.length < 4 then x.unknowns ++ [l.element] else x.unknowns } } })
              ∧ (∀ level hold, l.address = tx.address → tx.command = .step level hold → x.state = .ending →
                  exec .tlmWatchdogExpiry s = .next
                    { u with
                      search := { s.search with record := some { x with measureDeadline := none } }
                      tlm := { u.tlm with searchRequest := some { address := l.address, command := .release } } })
              ∧ (l.address = tx.address → tx.command = .release → x.state = .releasing →
                  exec .tlmWatchdogExpiry s = .next
                    { u with search := { s.search with record := some { x with state := .releaseWait } } })
              ∧ (l.address = tx.address → tx.command = .release → x.state = .ending →
                  exec .tlmWatchdogExpiry s = .next u))

/-- LAPSE_DEADLINE (R110) of an entry that no earlier deadline forestalls (the model's deduction, notes/assumptions/15.md): the
entry becomes PASS, its owner and deadline absent; a retained entry goes at once, or, while a transaction to its address is in
progress, stays in PASS until that transaction ends (R119). The search is told if it holds the leg: in RELEASING and
RELEASE_WAIT the leg is done and the next is taken up (R130, R131), in a taking up bounded at 80 (the model's deduction,
notes/assumptions/23.md), in ENDING the search ends (R138). That a RELEASE still pending is withdrawn at a lapse in RELEASING
is the model's deduction (notes/assumptions/14.md).
MEASURE_DEADLINE (R128, R129) in SETTLE or MEASURE: the leg is classified UNKNOWN, the peaks of a measure in progress are
discarded, a RELEASE of the leg is posted and the search is in RELEASING; in every other state the deadline has no effect
(R122), and a command for it changes nothing (the model's choice, notes/assumptions/2.md).
That each carries the elapsed-time base to its moment is the model's choice (notes/assumptions/4.md). -/
def Obligations.Deadlines : Prop :=
  (∀ (a due : Nat) (e : TrackEntry) (s : State), Quiet s → tableGet s.tlm.entries a = some e → e.deadline = some due →
      e.state ≠ .pass → (∀ p ∈ s.tlm.entries, p.2.retained = false) → lapseForestalled s a = false →
      let t := { s with
        clocks := { s.clocks with elapsed := max s.clocks.elapsed due }
        tlm := { s.tlm with
          entries := tableModify s.tlm.entries a (fun x => { x with state := .pass, owner := none, deadline := none }) } }
      exec (.lapseDeadline a) s = .next (if searchHolds s a = true then searchLapse a t else t))
    ∧ (∀ (a due : Nat) (e : TrackEntry) (s : State), Quiet s → tableGet s.tlm.entries a = some e → e.deadline = some due →
      e.state ≠ .pass → e.retained = true → (∀ p ∈ s.tlm.entries, p.2.retained = true ↔ p.1 = a) →
      (∀ tx, s.tlm.transaction = some tx → tx.address ≠ a) → searchHolds s a = false → lapseForestalled s a = false →
      exec (.lapseDeadline a) s = .next
        { s with
          clocks := { s.clocks with elapsed := max s.clocks.elapsed due }
          tlm := { s.tlm with entries := s.tlm.entries.filter (fun p => p.1 != a) } })
    ∧ (∀ (a due : Nat) (e : TrackEntry) (tx : Transaction) (s : State), Quiet s → tableGet s.tlm.entries a = some e →
      e.deadline = some due → e.state ≠ .pass → e.retained = true → (∀ p ∈ s.tlm.entries, p.2.retained = true ↔ p.1 = a) →
      s.tlm.transaction = some tx → tx.address = a → lapseForestalled s a = false →
      let t := { s with
        clocks := { s.clocks with elapsed := max s.clocks.elapsed due }
        tlm := { s.tlm with
          entries := tableModify s.tlm.entries a (fun x => { x with state := .pass, owner := none, deadline := none }) } }
      exec (.lapseDeadline a) s = .next (if searchHolds s a = true then searchLapse a t else t)
        ∧ ∀ reply, tableGet (entriesAfter tx reply t) a = none)
    ∧ (∀ (s : State) (a : Nat), lapseForestalled s a = true ↔
        (∃ tx level hold, s.tlm.transaction = some tx ∧ tx.address = a ∧ tx.command = .step level hold)
          ∨ ∃ x, s.search.record = some x ∧ ((x.legs[x.current]?).map (·.address)).getD 0 = a
              ∧ (x.state = .settle ∨ x.state = .measure))
    ∧ (∀ (x : SearchRecord) (l : Leg) (a : Nat) (s : State), s.search.record = some x → x.legs[x.current]? = some l →
        (l.address ≠ a → searchLapse a s = s)
          ∧ (l.address = a → x.state = .releasing → searchLapse a s =
              settle (takeUp s.map.elements s.tlm.entries 80 { x with current := x.current + 1 })
                { s with tlm := { s.tlm with searchRequest := none } })
          ∧ (l.address = a → x.state = .releaseWait → searchLapse a s =
              settle (takeUp s.map.elements s.tlm.entries 80 { x with current := x.current + 1 }) s)
          ∧ (∀ cause, l.address = a → x.state = .ending → x.cause = some cause →
              searchLapse a s = endSearch x cause x.head s)
          ∧ (x.state = .baseline ∨ x.state = .stepping ∨ x.state = .settle ∨ x.state = .measure → searchLapse a s = s))
    ∧ (∀ (x : SearchRecord) (l : Leg) (due : Nat) (s : State), Quiet s → s.search.record = some x →
      x.measureDeadline = some due → x.state = .settle ∨ x.state = .measure → x.legs[x.current]? = some l →
      exec .measureDeadline s = .next
        { s with
          clocks := { s.clocks with elapsed := max s.clocks.elapsed due }
          search := { s.search with
            record := some
              { x with
                state := .releasing, measureDeadline := none
                peakSum := if x.state = .measure then 0 else x.peakSum
                collected := if x.state = .measure then 0 else x.collected
                legs := x.legs.set x.current { l with cls := some .unknown, drop := none }
                unknowns := if x.unknowns.length < 4 then x.unknowns ++ [l.element] else x.unknowns } }
          tlm := { s.tlm with searchRequest := some { address := l.address, command := .release } } })
    ∧ (∀ (x : SearchRecord) (s : State), s.search.record = some x → x.state ≠ .settle → x.state ≠ .measure →
      exec .measureDeadline s = .next s)

/-- The band notice of a hand-off reaches a running search (R91) after every band has been classified and the band events have
reached the report slots (`classified`, R90): a change to CLEAR fixes the end cause INGRESS_GONE (R137), with what
SignalLossAndReturn states of each state (R138); otherwise BASELINE collects the peak, the K-th setting the baseline and posting the STEP (R126); SETTLE passes the sweep
over (R128); MEASURE collects the peak, the K-th classifying the leg by its drop and posting the RELEASE (R129). -/
def Obligations.SearchNotices : Prop :=
  (∀ (n : Nat) (levels : List Level) (x : SearchRecord) (b : BandSlot) (s : State),
      s.search.record = some x → s.bands.bands[x.band]? = some b → b.entry.enabled = true →
      let bins := (levels.drop b.entry.start).take (b.entry.stop + 1 - b.entry.start)
      handOff n levels s = searchNotice (peakOf bins)
        (decide (b.live.state = .declared ∧ (liveAfter b.entry bins b.live).state = .clear)) (classified n levels s))
    ∧ ∀ (peak : Int) (x : SearchRecord) (l : Leg) (s : State), s.search.record = some x → x.legs[x.current]? = some l →
        1 ≤ x.k →
        let sum := x.peakSum + peak
        let mean := sum / (x.k : Int)
        let now := fun (y : SearchRecord) => { s with search := { s.search with record := some y } }
        let posted := fun (y : SearchRecord) (c : TlmCommand) =>
          { now y with tlm := { s.tlm with searchRequest := some { address := l.address, command := c } } }
        searchNotice peak true s = fixCause .ingressGone s
          ∧ (x.state = .baseline → x.collected + 1 < x.k →
              searchNotice peak false s = now { x with peakSum := sum, collected := x.collected + 1 })
          ∧ (x.state = .baseline → x.collected + 1 = x.k →
              searchNotice peak false s = posted
                { x with state := .stepping, peakSum := sum, collected := x.k, baseline := some mean }
                (.step x.level x.hold))
          ∧ (x.state = .settle → 2 ≤ x.settle → searchNotice peak false s = now { x with settle := x.settle - 1 })
          ∧ (x.state = .settle → x.settle = 1 →
              searchNotice peak false s = now { x with state := .measure, settle := 0, peakSum := 0, collected := 0 })
          ∧ (x.state = .measure → x.collected + 1 < x.k →
              searchNotice peak false s = now { x with peakSum := sum, collected := x.collected + 1 })
          ∧ (∀ base, x.state = .measure → x.collected + 1 = x.k → x.baseline = some base →
              searchNotice peak false s = posted
                { x with
                  state := .releasing, peakSum := sum, collected := x.k, measureDeadline := none, measured := x.measured + 1
                  legs := x.legs.set x.current { l with cls := some (classOf x (base - mean)), drop := some (base - mean) } }
                .release)
          ∧ (x.state = .stepping ∨ x.state = .releasing ∨ x.state = .releaseWait ∨ x.state = .ending →
              searchNotice peak false s = s)

/-- The class of a measured leg (R134) and the level decision (R135): the FULL leg with the greatest drop, the lower element
number on a tie, becomes the new head; with none FULL the level ends SPLIT, INCONCLUSIVE or LOCALIZED. At a descent the path
grows, the secondary list keeps the four greatest drops, and the new head's child legs are the next level list; a head with
none ends LOCALIZED there (R135, R136). Taking up a reachable leg begins its baseline (R125). The end of a search (R62, R140
to R142): the record becomes IDLE, its result is the newest of at most eight, the final head's section is marked coincident
for LOCALIZED and SPLIT alone, and SEARCH_END is raised toward the report slots. -/
def Obligations.LevelDecisionAndEnd : Prop :=
  (∀ (x : SearchRecord) (d : Int),
      classOf x d = if x.step - x.mFull ≤ d then .full else if x.mLow ≤ d then .partialDrop else .noDrop)
    ∧ (∀ legs : List Leg, (∀ l ∈ legs, l.cls = some .full → l.drop ≠ none) →
        (∀ l ∈ legs, ∀ d, l.cls = some .full → l.drop = some d →
            (∀ m ∈ legs, ∀ e, m.cls = some .full → m.drop = some e → e < d ∨ (e = d ∧ l.element ≤ m.element)) →
            decideLevel legs = .descend l.element)
          ∧ ((∀ l ∈ legs, l.cls ≠ some .full) → (∃ l ∈ legs, l.cls = some .partialDrop) → decideLevel legs = .stop .split)
          ∧ ((∀ l ∈ legs, l.cls ≠ some .full ∧ l.cls ≠ some .partialDrop) → (∃ l ∈ legs, l.cls = some .unknown) →
              decideLevel legs = .stop .inconclusive)
          ∧ ((∀ l ∈ legs, l.cls = some .noDrop) → decideLevel legs = .stop .localized))
    ∧ (∀ l : List Secondary, (byDrop l).Perm l
        ∧ (byDrop l).Pairwise (fun a b => b.drop < a.drop ∨ (a.drop = b.drop ∧ a.element ≤ b.element)))
    ∧ (∀ (p : LegClass → Bool) (legs : List Leg), legsOfClass p legs = legs.filterMap (fun l =>
        l.cls.bind (fun c => l.drop.bind (fun d => if p c = true then some { element := l.element, cls := c, drop := d }
          else none))))
    ∧ (∀ (t : Table Element) (entries : Table TrackEntry) (n : Nat) (x : SearchRecord),
        (∀ l, x.legs[x.current]? = some l → (∀ e, tableGet entries l.address = some e → e.reachable = true) →
            takeUp t entries (n + 1) x = .running
              { x with state := .baseline, peakSum := 0, collected := 0, baseline := none, measureDeadline := none })
          ∧ (x.legs[x.current]? = none → decideLevel x.legs = .stop .split →
            takeUp t entries (n + 1) x = .ended
              { x with secondary := (byDrop (legsOfClass (· == .partialDrop) x.legs) ++ x.secondary).take 4 } .split x.head)
          ∧ (∀ o, x.legs[x.current]? = none → o ≠ .split → decideLevel x.legs = .stop o →
            takeUp t entries (n + 1) x = .ended x o x.head)
          ∧ (∀ h, x.legs[x.current]? = none → decideLevel x.legs = .descend h →
            let others := legsOfClass (fun c => c == .full || c == .partialDrop) (x.legs.filter (fun l => l.element != h))
            let y := { x with
              path := x.path ++ [h], secondary := (byDrop (others ++ x.secondary)).take 4, head := h
              legs := levelList t h, current := 0 }
            takeUp t entries (n + 1) x =
              if childLegs t h = [] then .ended y .localized h else takeUp t entries n y))
    ∧ (∀ (x : SearchRecord) (o : SearchOutcome) (head : Nat) (s : State),
        settle (.running x) s = { s with search := { s.search with record := some x } }
          ∧ settle (.ended x o head) s = endSearch x o head s)
    ∧ ∀ (x : SearchRecord) (o : SearchOutcome) (head : Nat) (s : State),
    let marks := o = .localized ∨ o = .split
    let inHead := fun (r : TallyRecord) => sectionHead s.map.elements r.element == some head
    ∃ result : SearchResult,
      endSearch x o head s =
        { s with
          search := { s.search with record := none, log := s.search.log.drop (s.search.log.length - 7) ++ [result] }
          tlm := { s.tlm with searchRequest := none }
          tally := { s.tally with
            records := if marks then s.tally.records.map (fun p => (p.1, if inHead p.2 then { p.2 with coincident := true } else p.2))
              else s.tally.records }
          reports := raiseEvent s.reports (.searchEnd x.number o) }
      ∧ result.number = x.number ∧ result.band = x.band ∧ result.level = x.level ∧ result.outcome = o ∧ result.head = head
      ∧ result.path = x.path ∧ result.secondary = x.secondary ∧ result.unknowns = x.unknowns
      ∧ result.measured = x.measured ∧ result.startTime = x.startTime ∧ result.endTime = s.clocks.plantTime
      ∧ (¬ marks → result.coincidence = [])
      ∧ (marks → result.coincidence = ((ranked (s.tally.records.filter (fun p => inHead p.2))).take 4).map
          (fun p => { element := p.2.element, place := p.2.place }))

/-! ## Events and the report slots -/

/-- An event reaches every slot that matches it (R182, R185), in ascending slot number: a slot not queued is appended with a
new trigger record, a queued one keeps its place and cause and counts the trigger; other slots and the order of the queue
stand as they were. So does a trigger of every other cause, NOW and PERIODIC (`enqueueSlot`, R182, R184, R186). -/
def Obligations.EventsReachSlots : Prop :=
  (∀ (e : SlotEntry) (ev : Event), eventMatches e ev = true ↔
      e.enabled = true ∧ e.trigger = .onEvent ∧ ∃ set, e.events = some set ∧
        match ev with
        | .declare band _ _ => set.declare = true ∧ (e.bandFilter = none ∨ e.bandFilter = some band)
        | .clear band _ => set.clear = true ∧ (e.bandFilter = none ∨ e.bandFilter = some band)
        | .newSuspect => set.newSuspect = true
        | .tallyFull => set.tallyFull = true
        | .searchEnd _ _ => set.searchEnd = true)
    ∧ (∀ (slot : Nat) (cause : Cause) (q : List QueuedSlot),
        ((∀ y ∈ q, y.slot ≠ slot) → enqueueSlot slot cause q = q ++ [{ slot := slot, cause := cause, count := 1 }])
          ∧ ((∃ y ∈ q, y.slot = slot) → enqueueSlot slot cause q =
              q.map (fun y => if y.slot = slot then { y with count := min 65535 (y.count + 1) } else y)))
    ∧ ∀ (r : Reports) (ev : Event),
        let q := (raiseEvent r ev).queue
        (raiseEvent r ev).slots = r.slots ∧ (raiseEvent r ev).alarms = r.alarms
          ∧ (∃ new : List Nat, q.map (·.slot) = r.queue.map (·.slot) ++ new ∧ new.Pairwise (· < ·))
          ∧ ∀ i x, r.slots[i]? = some x →
              q.filter (fun y => y.slot == i) =
                if eventMatches x.entry ev = false then r.queue.filter (fun y => y.slot == i)
                else if r.queue.any (fun y => y.slot == i) then
                  (r.queue.filter (fun y => y.slot == i)).map (fun y => { y with count := min 65535 (y.count + 1) })
                else [{ slot := i, cause := .event ev, count := 1 }]

/-! ## Laws that every step keeps -/

/-- One operation is in progress exactly while the head of the request queue is executing, and the response queue then has
room (R115, R168, R169). -/
def Obligations.StepKeepsHeadLaw : Prop :=
  ∀ s t : State, HeadLaw s → step s = .next t → HeadLaw t

/-- The request queue and the response queue hold at most 4, the direct queue 1, the descriptor queue 16, the result log 8,
and the report queue each slot at most once. -/
def Obligations.StepKeepsQueueLaw : Prop :=
  ∀ s t : State, HeadLaw s → QueueLaw s → step s = .next t → QueueLaw t

/-- Until a counter saturates, ACCEPTED is the sum of the ten completion counters and the queue's occupancy (R33). -/
def Obligations.StepKeepsIntakeLaw : Prop :=
  ∀ s t : State, IntakeLaw s → step s = .next t → IntakeLaw t

/-- READY holds a valid tree and EMPTY no element; unless the map is READY the tally holds no record and the search is IDLE
(R2, R4, R12). -/
def Obligations.StepKeepsMapLaws : Prop :=
  ∀ s t : State, HeadLaw s → MapLaw s → ReadyLaw s → step s = .next t → MapLaw t ∧ ReadyLaw t

/-- Every element record passes the write-time conditions of R6, every attachment entry holds values of R16 with no station
id twice, and both tables keep their canonical form. The element number of an entry that an image brought in may be any (the
model's choice, notes/assumptions/19.md). -/
def Obligations.StepKeepsElementAndAttachmentLaw : Prop :=
  ∀ s t : State, MapLaw s → ElementLaw s → AttachmentLaw s → step s = .next t → ElementLaw t ∧ AttachmentLaw t

/-- At most one leg tracking entry is out of PASS (R112), owner and lapse deadline stand exactly while an entry is not PASS
(R107), and an entry is UNREACHABLE exactly at three timeouts in a row (R111). -/
def Obligations.StepKeepsTrackingLaw : Prop :=
  ∀ s t : State, ElementLaw s → TrackingLaw s → step s = .next t → TrackingLaw t

/-- A band's hot run and cold run are never both nonzero (R88), and a disabled band is CLEAR (R83). -/
def Obligations.StepKeepsBandLaw : Prop :=
  ∀ s t : State, BandLaw s → step s = .next t → BandLaw t

/-- A tally record is SUSPECT exactly when its voters have reached the promote threshold (R50), no key is held twice (R49),
and no voter list is longer than eight or names an index twice. -/
def Obligations.StepKeepsTallyLaw : Prop :=
  ∀ s t : State, TallyLaw s → step s = .next t → TallyLaw t

/-- Every table keeps its number of entries, and every entry and the settings record hold values a write of them accepts. -/
def Obligations.StepKeepsTableLaw : Prop :=
  ∀ s t : State, SettingsLaw s → TableLaw s → step s = .next t → SettingsLaw t ∧ TableLaw t

/-- Consecutive results carry consecutive numbers, from 65535 to 1, the running search's and the next number among them (R142). -/
def Obligations.StepKeepsResultLaw : Prop :=
  ∀ s t : State, ResultLaw s → step s = .next t → ResultLaw t

/-- A lane's run stays below the one that changes its lock, and a frame is in reception only while the lane is LOCKED with
its signal present (R149 to R152). No event of the link lies in the past (the model's deduction, notes/assumptions/18.md);
the pass-through buffer's occupancy is at most 3631 and never above its peak, whole frames waiting, arriving and leaving
counted (R155, R157), and the node-bound store's at most 575 (R160). -/
def Obligations.StepKeepsLaneLaw : Prop :=
  ∀ s t : State, LaneLaw s → LinkLaw s → step s = .next t →
    LaneLaw t ∧ LinkLaw t ∧ occupancy t.link ≤ t.link.peak ∧ t.link.peak ≤ 3631 ∧ storeOccupancy t.link ≤ 575

/-- The image a save writes, with the records that ImageSave lists, is good: a load of it passes every check of R192 (R195).
The bytes of the records, over which the image's length and CRC are taken, are free values (the model's choice,
notes/assumptions/7.md), and an attachment record passes with any element number (its choice, notes/assumptions/19.md). -/
def Obligations.SaveWritesGoodImage : Prop :=
  ∀ s : State, SettingsLaw s → TableLaw s → ElementLaw s → AttachmentLaw s → imageGood (savedFlash (imageRecords s)) = true
end

