-- ==== Sys2Proof/Laws/State.lean ====
section
/-! SUPPORT. One lemma per block and update: what the small updates of the state leave as it was, each true by
definition, so that a proof about a block does not unfold a record update of another. -/

namespace Sys2Proof.Machine

/-! ## reach -/

@[simp] theorem link_reach (due : Nat) (s : State) : (reach due s).link = s.link := rfl

@[simp] theorem sweep_reach (due : Nat) (s : State) : (reach due s).sweep = s.sweep := rfl

@[simp] theorem bands_reach (due : Nat) (s : State) : (reach due s).bands = s.bands := rfl

@[simp] theorem map_reach (due : Nat) (s : State) : (reach due s).map = s.map := rfl

@[simp] theorem echo_reach (due : Nat) (s : State) : (reach due s).echo = s.echo := rfl

@[simp] theorem tally_reach (due : Nat) (s : State) : (reach due s).tally = s.tally := rfl

@[simp] theorem tlm_reach (due : Nat) (s : State) : (reach due s).tlm = s.tlm := rfl

@[simp] theorem search_reach (due : Nat) (s : State) : (reach due s).search = s.search := rfl

@[simp] theorem mgmt_reach (due : Nat) (s : State) : (reach due s).mgmt = s.mgmt := rfl

@[simp] theorem reports_reach (due : Nat) (s : State) : (reach due s).reports = s.reports := rfl

@[simp] theorem image_reach (due : Nat) (s : State) : (reach due s).image = s.image := rfl

@[simp] theorem pending_reach (due : Nat) (s : State) : (reach due s).pending = s.pending := rfl

/-! ## answer -/

@[simp] theorem clocks_answer (r : Request) (code : Completion) (body : Body) (s : State) : (answer r code body s).clocks = s.clocks := rfl

@[simp] theorem link_answer (r : Request) (code : Completion) (body : Body) (s : State) : (answer r code body s).link = s.link := rfl

@[simp] theorem sweep_answer (r : Request) (code : Completion) (body : Body) (s : State) : (answer r code body s).sweep = s.sweep := rfl

@[simp] theorem bands_answer (r : Request) (code : Completion) (body : Body) (s : State) : (answer r code body s).bands = s.bands := rfl

@[simp] theorem map_answer (r : Request) (code : Completion) (body : Body) (s : State) : (answer r code body s).map = s.map := rfl

@[simp] theorem echo_answer (r : Request) (code : Completion) (body : Body) (s : State) : (answer r code body s).echo = s.echo := rfl

@[simp] theorem tally_answer (r : Request) (code : Completion) (body : Body) (s : State) : (answer r code body s).tally = s.tally := rfl

@[simp] theorem tlm_answer (r : Request) (code : Completion) (body : Body) (s : State) : (answer r code body s).tlm = s.tlm := rfl

@[simp] theorem search_answer (r : Request) (code : Completion) (body : Body) (s : State) : (answer r code body s).search = s.search := rfl

@[simp] theorem reports_answer (r : Request) (code : Completion) (body : Body) (s : State) : (answer r code body s).reports = s.reports := rfl

@[simp] theorem image_answer (r : Request) (code : Completion) (body : Body) (s : State) : (answer r code body s).image = s.image := rfl

@[simp] theorem pending_answer (r : Request) (code : Completion) (body : Body) (s : State) : (answer r code body s).pending = s.pending := rfl

/-! ## refuse -/

@[simp] theorem clocks_refuse (r : Request) (code : Completion) (s : State) : (refuse r code s).clocks = s.clocks := rfl

@[simp] theorem link_refuse (r : Request) (code : Completion) (s : State) : (refuse r code s).link = s.link := rfl

@[simp] theorem sweep_refuse (r : Request) (code : Completion) (s : State) : (refuse r code s).sweep = s.sweep := rfl

@[simp] theorem bands_refuse (r : Request) (code : Completion) (s : State) : (refuse r code s).bands = s.bands := rfl

@[simp] theorem map_refuse (r : Request) (code : Completion) (s : State) : (refuse r code s).map = s.map := rfl

@[simp] theorem echo_refuse (r : Request) (code : Completion) (s : State) : (refuse r code s).echo = s.echo := rfl

@[simp] theorem tally_refuse (r : Request) (code : Completion) (s : State) : (refuse r code s).tally = s.tally := rfl

@[simp] theorem tlm_refuse (r : Request) (code : Completion) (s : State) : (refuse r code s).tlm = s.tlm := rfl

@[simp] theorem search_refuse (r : Request) (code : Completion) (s : State) : (refuse r code s).search = s.search := rfl

@[simp] theorem reports_refuse (r : Request) (code : Completion) (s : State) : (refuse r code s).reports = s.reports := rfl

@[simp] theorem image_refuse (r : Request) (code : Completion) (s : State) : (refuse r code s).image = s.image := rfl

@[simp] theorem pending_refuse (r : Request) (code : Completion) (s : State) : (refuse r code s).pending = s.pending := rfl

/-! ## hold -/

@[simp] theorem clocks_hold (s : State) : (hold s).clocks = s.clocks := rfl

@[simp] theorem link_hold (s : State) : (hold s).link = s.link := rfl

@[simp] theorem sweep_hold (s : State) : (hold s).sweep = s.sweep := rfl

@[simp] theorem bands_hold (s : State) : (hold s).bands = s.bands := rfl

@[simp] theorem map_hold (s : State) : (hold s).map = s.map := rfl

@[simp] theorem echo_hold (s : State) : (hold s).echo = s.echo := rfl

@[simp] theorem tally_hold (s : State) : (hold s).tally = s.tally := rfl

@[simp] theorem tlm_hold (s : State) : (hold s).tlm = s.tlm := rfl

@[simp] theorem search_hold (s : State) : (hold s).search = s.search := rfl

@[simp] theorem reports_hold (s : State) : (hold s).reports = s.reports := rfl

@[simp] theorem image_hold (s : State) : (hold s).image = s.image := rfl

@[simp] theorem pending_hold (s : State) : (hold s).pending = s.pending := rfl

/-! ## raiseEvents -/

@[simp] theorem clocks_raiseEvents (evs : List Event) (s : State) : (raiseEvents evs s).clocks = s.clocks := rfl

@[simp] theorem link_raiseEvents (evs : List Event) (s : State) : (raiseEvents evs s).link = s.link := rfl

@[simp] theorem sweep_raiseEvents (evs : List Event) (s : State) : (raiseEvents evs s).sweep = s.sweep := rfl

@[simp] theorem bands_raiseEvents (evs : List Event) (s : State) : (raiseEvents evs s).bands = s.bands := rfl

@[simp] theorem map_raiseEvents (evs : List Event) (s : State) : (raiseEvents evs s).map = s.map := rfl

@[simp] theorem echo_raiseEvents (evs : List Event) (s : State) : (raiseEvents evs s).echo = s.echo := rfl

@[simp] theorem tally_raiseEvents (evs : List Event) (s : State) : (raiseEvents evs s).tally = s.tally := rfl

@[simp] theorem tlm_raiseEvents (evs : List Event) (s : State) : (raiseEvents evs s).tlm = s.tlm := rfl

@[simp] theorem search_raiseEvents (evs : List Event) (s : State) : (raiseEvents evs s).search = s.search := rfl

@[simp] theorem mgmt_raiseEvents (evs : List Event) (s : State) : (raiseEvents evs s).mgmt = s.mgmt := rfl

@[simp] theorem image_raiseEvents (evs : List Event) (s : State) : (raiseEvents evs s).image = s.image := rfl

@[simp] theorem pending_raiseEvents (evs : List Event) (s : State) : (raiseEvents evs s).pending = s.pending := rfl

/-! ## post -/

@[simp] theorem clocks_post (a : Nat) (c : TlmCommand) (s : State) : (post a c s).clocks = s.clocks := rfl

@[simp] theorem link_post (a : Nat) (c : TlmCommand) (s : State) : (post a c s).link = s.link := rfl

@[simp] theorem sweep_post (a : Nat) (c : TlmCommand) (s : State) : (post a c s).sweep = s.sweep := rfl

@[simp] theorem bands_post (a : Nat) (c : TlmCommand) (s : State) : (post a c s).bands = s.bands := rfl

@[simp] theorem map_post (a : Nat) (c : TlmCommand) (s : State) : (post a c s).map = s.map := rfl

@[simp] theorem echo_post (a : Nat) (c : TlmCommand) (s : State) : (post a c s).echo = s.echo := rfl

@[simp] theorem tally_post (a : Nat) (c : TlmCommand) (s : State) : (post a c s).tally = s.tally := rfl

@[simp] theorem search_post (a : Nat) (c : TlmCommand) (s : State) : (post a c s).search = s.search := rfl

@[simp] theorem mgmt_post (a : Nat) (c : TlmCommand) (s : State) : (post a c s).mgmt = s.mgmt := rfl

@[simp] theorem reports_post (a : Nat) (c : TlmCommand) (s : State) : (post a c s).reports = s.reports := rfl

@[simp] theorem image_post (a : Nat) (c : TlmCommand) (s : State) : (post a c s).image = s.image := rfl

@[simp] theorem pending_post (a : Nat) (c : TlmCommand) (s : State) : (post a c s).pending = s.pending := rfl

/-! ## withdraw -/

@[simp] theorem clocks_withdraw (s : State) : (withdraw s).clocks = s.clocks := rfl

@[simp] theorem link_withdraw (s : State) : (withdraw s).link = s.link := rfl

@[simp] theorem sweep_withdraw (s : State) : (withdraw s).sweep = s.sweep := rfl

@[simp] theorem bands_withdraw (s : State) : (withdraw s).bands = s.bands := rfl

@[simp] theorem map_withdraw (s : State) : (withdraw s).map = s.map := rfl

@[simp] theorem echo_withdraw (s : State) : (withdraw s).echo = s.echo := rfl

@[simp] theorem tally_withdraw (s : State) : (withdraw s).tally = s.tally := rfl

@[simp] theorem search_withdraw (s : State) : (withdraw s).search = s.search := rfl

@[simp] theorem mgmt_withdraw (s : State) : (withdraw s).mgmt = s.mgmt := rfl

@[simp] theorem reports_withdraw (s : State) : (withdraw s).reports = s.reports := rfl

@[simp] theorem image_withdraw (s : State) : (withdraw s).image = s.image := rfl

@[simp] theorem pending_withdraw (s : State) : (withdraw s).pending = s.pending := rfl

/-! ## setSearch -/

@[simp] theorem clocks_setSearch (r : SearchRecord) (s : State) : (setSearch r s).clocks = s.clocks := rfl

@[simp] theorem link_setSearch (r : SearchRecord) (s : State) : (setSearch r s).link = s.link := rfl

@[simp] theorem sweep_setSearch (r : SearchRecord) (s : State) : (setSearch r s).sweep = s.sweep := rfl

@[simp] theorem bands_setSearch (r : SearchRecord) (s : State) : (setSearch r s).bands = s.bands := rfl

@[simp] theorem map_setSearch (r : SearchRecord) (s : State) : (setSearch r s).map = s.map := rfl

@[simp] theorem echo_setSearch (r : SearchRecord) (s : State) : (setSearch r s).echo = s.echo := rfl

@[simp] theorem tally_setSearch (r : SearchRecord) (s : State) : (setSearch r s).tally = s.tally := rfl

@[simp] theorem tlm_setSearch (r : SearchRecord) (s : State) : (setSearch r s).tlm = s.tlm := rfl

@[simp] theorem mgmt_setSearch (r : SearchRecord) (s : State) : (setSearch r s).mgmt = s.mgmt := rfl

@[simp] theorem reports_setSearch (r : SearchRecord) (s : State) : (setSearch r s).reports = s.reports := rfl

@[simp] theorem image_setSearch (r : SearchRecord) (s : State) : (setSearch r s).image = s.image := rfl

@[simp] theorem pending_setSearch (r : SearchRecord) (s : State) : (setSearch r s).pending = s.pending := rfl

/-! ## What each update writes -/

theorem mgmt_answer (r : Request) (code : Completion) (body : Body) (s : State) : (answer r code body s).mgmt =
      { s.mgmt with
        requests := s.mgmt.requests.tail
        executing := false
        responses := s.mgmt.responses ++ [{ address := s.mgmt.nodeAddress, tag := r.head.tag, kind := r.head.kind,
                                            code := code, body := body }] } := rfl

theorem mgmt_hold (s : State) : (hold s).mgmt = { s.mgmt with executing := true } := rfl

theorem clocks_reach (due : Nat) (s : State) : (reach due s).clocks = { s.clocks with elapsed := max s.clocks.elapsed due } := rfl

theorem search_setSearch (r : SearchRecord) (s : State) : (setSearch r s).search = { s.search with record := some r } := rfl

theorem tlm_post (a : Nat) (c : TlmCommand) (s : State) : (post a c s).tlm = { s.tlm with searchRequest := some { address := a, command := c } } := rfl

theorem tlm_withdraw (s : State) : (withdraw s).tlm = { s.tlm with searchRequest := none } := rfl

end Sys2Proof.Machine
end

