-- ==== Sys2Proof/Laws/Effects.lean ====
section
/-! SUPPORT. What each shared operation of the blocks can change, said once: the events, the tally's evaluations, the
search's moves, the sweep hand-off, the end of a transaction, the settings' effects, and a load. -/

namespace Sys2Proof.Machine

/-! ## Events -/

/-- Events change the report queue alone (R182, R185). -/
theorem foldl_raiseEvent_frame (evs : List Event) (r : Reports) :
    (evs.foldl raiseEvent r).slots = r.slots ∧ (evs.foldl raiseEvent r).alarms = r.alarms := by
  induction evs generalizing r with
  | nil => exact ⟨rfl, rfl⟩
  | cons e evs ih => exact ih (raiseEvent r e)

@[simp] theorem raiseEvents_slots (evs : List Event) (s : State) : (raiseEvents evs s).reports.slots = s.reports.slots :=
  (foldl_raiseEvent_frame evs s.reports).1

@[simp] theorem raiseEvents_alarms (evs : List Event) (s : State) : (raiseEvents evs s).reports.alarms = s.reports.alarms :=
  (foldl_raiseEvent_frame evs s.reports).2

/-! ## The search's moves -/

/-- All that a move of the search can change: the search itself, its pending request, the tally's records (their
coincident flags) and the report queue. -/
def SearchTouches (s t : State) : Prop :=
  t.clocks = s.clocks ∧ t.link = s.link ∧ t.sweep = s.sweep ∧ t.bands = s.bands ∧ t.map = s.map ∧ t.echo = s.echo
    ∧ t.mgmt = s.mgmt ∧ t.image = s.image ∧ t.pending = s.pending
    ∧ t.tlm = { s.tlm with searchRequest := t.tlm.searchRequest }
    ∧ t.tally = { s.tally with records := t.tally.records }
    ∧ t.reports.slots = s.reports.slots ∧ t.reports.alarms = s.reports.alarms

theorem SearchTouches.refl (s : State) : SearchTouches s s :=
  ⟨rfl, rfl, rfl, rfl, rfl, rfl, rfl, rfl, rfl, rfl, rfl, rfl, rfl⟩

theorem SearchTouches.trans {s t u : State} (h : SearchTouches s t) (k : SearchTouches t u) : SearchTouches s u := by
  obtain ⟨a1, a2, a3, a4, a5, a6, a7, a8, a9, a10, a11, a12, a13⟩ := h
  obtain ⟨b1, b2, b3, b4, b5, b6, b7, b8, b9, b10, b11, b12, b13⟩ := k
  refine ⟨b1.trans a1, b2.trans a2, b3.trans a3, b4.trans a4, b5.trans a5, b6.trans a6, b7.trans a7, b8.trans a8,
    b9.trans a9, ?_, ?_, b12.trans a12, b13.trans a13⟩
  · rw [b10, a10]
  · rw [b11, a11]

theorem setSearch_touches (r : SearchRecord) (s : State) : SearchTouches s (setSearch r s) :=
  ⟨rfl, rfl, rfl, rfl, rfl, rfl, rfl, rfl, rfl, rfl, rfl, rfl, rfl⟩

theorem post_touches (a : Nat) (c : TlmCommand) (s : State) : SearchTouches s (post a c s) :=
  ⟨rfl, rfl, rfl, rfl, rfl, rfl, rfl, rfl, rfl, rfl, rfl, rfl, rfl⟩

theorem withdraw_touches (s : State) : SearchTouches s (withdraw s) :=
  ⟨rfl, rfl, rfl, rfl, rfl, rfl, rfl, rfl, rfl, rfl, rfl, rfl, rfl⟩

theorem postRelease_touches (r : SearchRecord) (st : RunState) (s : State) : SearchTouches s (postRelease r st s) :=
  (setSearch_touches _ s).trans (post_touches _ _ _)

theorem endSearch_touches (r : SearchRecord) (o : SearchOutcome) (head : Nat) (s : State) :
    SearchTouches s (endSearch r o head s) :=
  ⟨rfl, rfl, rfl, rfl, rfl, rfl, rfl, rfl, rfl, rfl, rfl, rfl, rfl⟩

theorem settle_touches (p : Progress) (s : State) : SearchTouches s (settle p s) := by
  cases p with
  | running r => exact setSearch_touches r s
  | ended r o head => exact endSearch_touches r o head s

theorem nextLeg_touches (r : SearchRecord) (s : State) : SearchTouches s (nextLeg r s) := settle_touches _ s

theorem fixCause_touches (cause : SearchOutcome) (s : State) : SearchTouches s (fixCause cause s) := by
  unfold fixCause
  split
  · exact .refl s
  · dsimp only
    split
    · exact .refl s
    · exact endSearch_touches _ _ _ s
    · split
      · exact (withdraw_touches s).trans (endSearch_touches _ _ _ _)
      · exact setSearch_touches _ s
    · exact postRelease_touches _ _ s
    · exact postRelease_touches _ _ s
    · exact setSearch_touches _ s
    · exact setSearch_touches _ s

theorem searchNotice_touches (peak : Int) (cleared : Bool) (s : State) : SearchTouches s (searchNotice peak cleared s) := by
  unfold searchNotice
  split
  · exact .refl s
  · split
    · exact fixCause_touches _ s
    · split
      · unfold collectBaseline
        dsimp only
        split
        · exact (setSearch_touches _ s).trans (post_touches _ _ _)
        · exact setSearch_touches _ s
      · unfold passSettle
        split <;> exact setSearch_touches _ s
      · unfold collectMeasure
        dsimp only
        split
        · exact postRelease_touches _ _ s
        · exact setSearch_touches _ s
      all_goals exact .refl s

theorem searchOutcome_touches (tx : Transaction) (reply : Option Reply) (s : State) :
    SearchTouches s (searchOutcome tx reply s) := by
  unfold searchOutcome
  split
  · exact .refl s
  · split
    · exact .refl s
    · split
      · unfold stepAcknowledged
        dsimp only
        split <;> exact setSearch_touches _ s
      · exact postRelease_touches _ _ s
      · exact nextLeg_touches _ s
      · exact setSearch_touches _ s
      · exact postRelease_touches _ _ s
      · exact endSearch_touches _ _ _ s
      · exact .refl s

/-- An outcome that comes when no search runs changes nothing more (R130). -/
theorem searchOutcome_of_idle (tx : Transaction) (reply : Option Reply) {s : State} (h : s.search.record = none) :
    searchOutcome tx reply s = s := by
  unfold searchOutcome
  rw [h]

/-- An outcome that comes when the search waits for none changes nothing more (R130). -/
theorem searchOutcome_of_unawaited (tx : Transaction) (reply : Option Reply) {s : State} {x : SearchRecord}
    (h : s.search.record = some x) (h1 : x.state ≠ .stepping) (h2 : x.state ≠ .releasing) (h3 : x.state ≠ .ending) :
    searchOutcome tx reply s = s := by
  unfold searchOutcome
  rw [h]
  dsimp only
  split
  · rfl
  · split <;> first | rfl | simp_all

theorem searchLapse_touches (address : Nat) (s : State) : SearchTouches s (searchLapse address s) := by
  unfold searchLapse
  split
  · exact .refl s
  · split
    · exact .refl s
    · split
      · exact (withdraw_touches s).trans (nextLeg_touches _ _)
      · exact nextLeg_touches _ s
      · exact endSearch_touches _ _ _ s
      all_goals exact .refl s

/-! ## Sweeps -/

/-- The events of a hand-off, band by band (R90). -/
theorem bandEvents_eq (n : Nat) (levels : List Level) (bs : List BandSlot) : ∀ k,
    bandEvents n levels k bs = (List.range bs.length).flatMap (fun i =>
    match bs[i]? with
    | none => []
    | some x =>
      if x.entry.enabled = true then
        bandEvent (i + k) n x.entry x.live
          (liveAfter x.entry ((levels.drop x.entry.start).take (x.entry.stop + 1 - x.entry.start)) x.live)
      else []) := by
  induction bs with
  | nil => intro k; rfl
  | cons b bs ih =>
    intro k
    rw [List.length_cons, List.range_succ_eq_map, List.flatMap_cons, List.flatMap_map]
    unfold bandEvents
    rw [ih (k+1)]
    congr 1
    · simp only [List.getElem?_cons_zero, bandAfter, bandLevels, Nat.zero_add]
      split
      · rfl
      · cases hs : b.live.state <;> simp [bandEvent, hs]
    · congr 1; funext i; simp [Nat.succ_eq_add_one, Nat.add_assoc, Nat.add_comm 1 k]

/-- What a hand-off makes of the bands and the report slots before its notice (R86, R90). -/
theorem classified_eq (n : Nat) (levels : List Level) (s : State) :
    raiseEvents (bandEvents n levels 0 s.bands.bands)
        { s with bands := { s.bands with bands := s.bands.bands.map (bandAfter levels) } } = classified n levels s := by
  unfold classified raiseEvents
  rw [bandEvents_eq]
  rfl

/-- A sweep hand-off changes the bands' live states, and what the notice moves in the search (R86, R91). -/
theorem handOff_touches (sweep : Nat) (levels : List Level) (s : State) :
    SearchTouches { s with bands := { s.bands with bands := s.bands.bands.map (bandAfter levels) } }
      (handOff sweep levels s) := by
  unfold handOff
  dsimp only
  have h : SearchTouches { s with bands := { s.bands with bands := s.bands.bands.map (bandAfter levels) } }
      (raiseEvents (bandEvents sweep levels 0 s.bands.bands)
        { s with bands := { s.bands with bands := s.bands.bands.map (bandAfter levels) } }) :=
    ⟨rfl, rfl, rfl, rfl, rfl, rfl, rfl, rfl, rfl, rfl, rfl, raiseEvents_slots _ _, raiseEvents_alarms _ _⟩
  split
  · exact h.trans (searchNotice_touches _ _ _)
  · exact h

/-! ## The tally -/

/-- Evaluating every record gives each the state of R50. -/
theorem evaluateRecords_some (promote : Nat) (records : Table TallyRecord) :
    (evaluateRecords promote some records).1
      = records.map (fun p => (p.1, { p.2 with state := stateFor promote p.2.voters })) := by
  induction records with
  | nil => rfl
  | cons p rest ih => obtain ⟨slot, r⟩ := p; simp [evaluateRecords, evaluate, ih]

/-- Removing a voter takes it out of every list and evaluates the records that held it (R58). -/
theorem evaluateRecords_remove (promote index : Nat) (records : Table TallyRecord) :
    (evaluateRecords promote
        (fun r => if r.voters.contains index then some { r with voters := r.voters.filter (fun v => v != index) } else none)
        records).1
      = records.map (fun p => (p.1,
          if index ∈ p.2.voters then
            { p.2 with voters := p.2.voters.filter (fun v => v != index)
                       state := stateFor promote (p.2.voters.filter (fun v => v != index)) }
          else p.2)) := by
  induction records with
  | nil => rfl
  | cons p rest ih =>
    obtain ⟨slot, r⟩ := p
    simp only [List.contains_iff_mem] at ih
    simp only [evaluateRecords, List.map_cons, List.contains_iff_mem]
    by_cases h : index ∈ r.voters <;> simp [h, evaluate, ih]

/-- Removing a voter raises one event for each record that rises by it (R57, R58). -/
theorem evaluateRecords_remove_events (promote index : Nat) (records : Table TallyRecord) :
    (evaluateRecords promote
        (fun r => if r.voters.contains index then some { r with voters := r.voters.filter (fun v => v != index) } else none)
        records).2
      = List.replicate (records.filter (fun p => decide (index ∈ p.2.voters) && p.2.state == .watch
          && decide (promote ≤ (p.2.voters.filter (fun v => v != index)).length))).length Event.newSuspect := by
  induction records with
  | nil => rfl
  | cons p rest ih =>
    obtain ⟨slot, r⟩ := p
    simp only [List.contains_iff_mem] at ih
    simp only [evaluateRecords, List.contains_iff_mem, List.filter_cons]
    by_cases h : index ∈ r.voters
    · by_cases hw : r.state = .watch
      · by_cases hp : promote ≤ (r.voters.filter (fun v => v != index)).length <;>
          simp [h, hw, hp, evaluate, stateFor, ih, List.replicate_succ]
      · simp [h, hw, evaluate, ih]
    · simp [h, ih]

/-- What the removal of a voter comes to (R58). -/
theorem removeVoter_eq (i : Nat) (s : State) : removeVoter i s = withoutVoter i s := by
  unfold removeVoter withoutVoter raiseEvents
  simp only [evaluateRecords_remove, evaluateRecords_remove_events, stateFor, decide_eq_true_eq]

/-- Casting votes changes the tally and the report queue alone (R51 to R56). -/
theorem castVotes_frame (b : Ballot) (keys : List Key) (s : State) :
    { castVotes b keys s with tally := s.tally, reports := s.reports } = s := rfl

/-- Removing a voter changes the tally and the report queue alone (R58). -/
theorem removeVoter_frame (index : Nat) (s : State) :
    { removeVoter index s with tally := s.tally, reports := s.reports } = s := rfl

@[simp] theorem removeVoter_mgmt (index : Nat) (s : State) : (removeVoter index s).mgmt = s.mgmt := rfl

/-! ## Management -/

/-- The completion of a held request changes management alone (R166, R168). -/
theorem answerHead_frame (code : Completion) (body : Body) (s : State) :
    { answerHead code body s with mgmt := s.mgmt } = s := by
  unfold answerHead
  split <;> rfl

/-- A change of settings: the record, the two timers, and where the promote threshold changed the tally and the report
queue (R57, R59, R94, R174). -/
theorem applySettings_frame (n : Settings) (s : State) :
    { applySettings n s with mgmt := s.mgmt, tally := s.tally, bands := s.bands, reports := s.reports } = s := by
  unfold applySettings
  dsimp only
  split <;> rfl

/-- A change of settings puts the whole record in place and leaves the rest of management. -/
theorem applySettings_mgmt (n : Settings) (s : State) : (applySettings n s).mgmt = { s.mgmt with settings := n } := by
  unfold applySettings
  dsimp only
  split <;> rfl

/-- What stands in a table written out with its numbers (R195). -/
theorem mem_numbered {α β : Type} (f : Nat → α → β) (l : List α) :
    ∀ (k : Nat) (y : β), y ∈ numbered f k l ↔ ∃ i c, l[i]? = some c ∧ y = f (i + k) c := by
  induction l with
  | nil => intro k y; simp [numbered]
  | cons a l ih =>
    intro k y
    simp only [numbered, List.mem_cons, ih]
    constructor
    · rintro (h | ⟨i, c, h1, h2⟩)
      · exact ⟨0, a, rfl, by simpa using h⟩
      · exact ⟨i + 1, c, by simpa using h1, by rw [h2]; congr 1; omega⟩
    · rintro ⟨i, c, h1, h2⟩
      cases i with
      | zero => left; simp at h1; subst h1; simpa using h2
      | succ i => right; exact ⟨i, c, by simpa using h1, by rw [h2]; congr 1; omega⟩

end Sys2Proof.Machine
end

