-- ==== Sys2Proof/Laws/Link.lean ====
section
/-! SUPPORT. The link's own updates: what a lane, the stores and the byte time hold after one of them; and the frames that
the part originates. -/

namespace Sys2Proof.Machine

@[simp] theorem setLane_lane (l : Link) (which : Lane) (x : RxLane) : (l.setLane which x).lane which = x := by cases which <;> rfl

/-- A change of one lane leaves the other. -/
theorem setLane_lane_ne (l : Link) {which other : Lane} (x : RxLane) (h : other ≠ which) :
    (l.setLane which x).lane other = l.lane other := by
  cases which <;> cases other <;> first | rfl | exact absurd rfl h

@[simp] theorem setLane_byteTime (l : Link) (which : Lane) (x : RxLane) : (l.setLane which x).byteTime = l.byteTime := by
  cases which <;> rfl

@[simp] theorem setLane_through (l : Link) (which : Lane) (x : RxLane) : (l.setLane which x).through = l.through := by
  cases which <;> rfl

@[simp] theorem setLane_store (l : Link) (which : Lane) (x : RxLane) : (l.setLane which x).store = l.store := by
  cases which <;> rfl

@[simp] theorem notePeak_lane (l : Link) (which : Lane) : (notePeak l).lane which = l.lane which := by cases which <;> rfl

@[simp] theorem notePeak_byteTime (l : Link) : (notePeak l).byteTime = l.byteTime := rfl

@[simp] theorem notePeak_through (l : Link) : (notePeak l).through = l.through := rfl

@[simp] theorem notePeak_store (l : Link) : (notePeak l).store = l.store := rfl

@[simp] theorem reachByte_lane (p : Nat) (l : Link) (which : Lane) : (reachByte p l).lane which = l.lane which := by
  cases which <;> rfl

@[simp] theorem reachByte_byteTime (p : Nat) (l : Link) : (reachByte p l).byteTime = max l.byteTime p := rfl

@[simp] theorem reachByte_through (p : Nat) (l : Link) : (reachByte p l).through = l.through := rfl

@[simp] theorem reachByte_store (p : Nat) (l : Link) : (reachByte p l).store = l.store := rfl

/-- Storing a frame leaves both lanes. -/
@[simp] theorem storeFrame_lane (which : Lane) (f : Frame) (taken : Bool) (l : Link) (lane : Lane) :
    (storeFrame which f taken l).lane lane = l.lane lane := by
  unfold storeFrame
  split
  · rfl
  · cases which <;> cases lane <;> rfl

/-- What `inOrder` asks: neither transmitter ends a frame before the moment, and neither lane's next event comes before it. -/
theorem inOrder_eq_true_iff (l : Link) (m : Nat) : inOrder l m = true ↔
    m ≤ l.hubTx.endsAt ∧ m ≤ l.nodeTx.endsAt ∧ ∀ which d, laneDue (l.lane which) = some d → m ≤ d := by
  have h : (∀ which d, laneDue (l.lane which) = some d → m ≤ d)
      ↔ (∀ d, laneDue l.node = some d → m ≤ d) ∧ ∀ d, laneDue l.hub = some d → m ≤ d :=
    ⟨fun h => ⟨h .nodeSide, h .hubSide⟩, fun h which => by cases which with
      | nodeSide => exact h.1
      | hubSide => exact h.2⟩
  rw [h]
  unfold inOrder
  cases laneDue l.node <;> cases laneDue l.hub <;> simp [and_assoc]

/-- An own frame is at most 560 bytes: its body is cut at 544 (R158). -/
theorem ownFrame_length (kind address : Byte) (tag : Word16) (reqKind code : Byte) (body : List Byte) :
    (ownFrame kind address tag reqKind code body).length = 16 * leastLenCode body.length := by
  have h : body.length + 16 ≤ 16 * leastLenCode body.length := by unfold leastLenCode; omega
  simp [ownFrame, makeHeader, beBytes, leBytes]
  omega

/-- The header of every frame the part originates is valid (R147). -/
theorem headerValid_makeHeader (kind a : Byte) (L : Nat) (h1 : 1 ≤ L) (h2 : L ≤ 35) (hk : kind ≠ 0 ∨ L = 1) :
    headerValid (makeHeader kind L a) = true := by
  have hl : (BitVec.ofNat 8 L).toNat = L := by simp; omega
  have hk' : kind ≠ 0 ∨ BitVec.ofNat 8 L = 1 := by
    rcases hk with h | h
    · exact .inl h
    · right; subst h; rfl
  simp [headerValid, makeHeader, byteAt, hl, h1, h2] 
  simpa using hk'

/-- Two bytes, most significant first, spell their value (R148). -/
theorem beNat_beBytes (w : Word16) : beNat (beBytes w) = w.toNat := by
  simp only [beNat, beBytes, List.foldl_cons, List.foldl_nil, BitVec.toNat_setWidth, BitVec.toNat_ushiftRight, Nat.shiftRight_eq_div_pow]
  have := w.isLt
  omega

/-- An own frame is laid out as R148 has it, for every body of at most 544 bytes. -/
theorem ownFrame_laidOut (kind a : Byte) (tag : Word16) (rk c : Byte) (body : List Byte) (hk : kind ≠ 0) (hb : body.length ≤ 544) :
    LaidOut kind a tag.toNat rk c body (ownFrame kind a tag rk c body) := by
  unfold LaidOut
  have hlen := ownFrame_length kind a tag rk c body
  obtain ⟨l1, l2, l3, l4⟩ : 1 ≤ leastLenCode body.length ∧ leastLenCode body.length ≤ 35
      ∧ body.length + 16 ≤ 16 * leastLenCode body.length ∧ 16 * leastLenCode body.length < body.length + 32 := by
    unfold leastLenCode; omega
  have hl : (BitVec.ofNat 8 (leastLenCode body.length)).toNat = leastLenCode body.length := by simp; omega
  have h8 := beNat_beBytes tag
  have hn : beNat (beBytes (BitVec.ofNat 16 body.length)) = body.length := by
    rw [beNat_beBytes, BitVec.toNat_ofNat, Nat.mod_eq_of_lt (by omega)]
  have ht : (ownFrame kind a tag rk c body).take 6 = makeHeader kind (leastLenCode body.length) a := by
    simp [ownFrame, makeHeader]
  refine ⟨?_, ?_, ?_, ?_, ?_, ?_, ?_, ?_, ?_, ?_, ?_, ?_, ?_⟩
  · rw [ht]; exact headerValid_makeHeader kind a _ l1 l2 (.inl hk)
  · simp [headerKind, byteAt, ownFrame, makeHeader]
  · rw [hlen]; simp [headerLength, byteAt, ownFrame, makeHeader]; omega
  · simp [headerAddress, byteAt, ownFrame, makeHeader]
  · rw [hlen]; omega
  · rw [hlen]; omega
  · rw [← h8]; simp [field, ownFrame, makeHeader, beBytes]
  · simp [byteAt, ownFrame, makeHeader, beBytes]
  · simp [byteAt, ownFrame, makeHeader, beBytes]
  · refine Eq.trans ?_ hn; simp [field, ownFrame, makeHeader, beBytes]
  · simp [field, ownFrame, makeHeader, beBytes]
  · intro i h1 h2
    rw [hlen] at h2
    simp only [byteAt, ownFrame]
    rw [List.getD_eq_getElem?_getD, List.append_assoc, List.getElem?_append_right (by simp [makeHeader, beBytes]; omega),
      List.getElem?_append_left (by simp [makeHeader, beBytes]; omega), List.getElem?_replicate]
    split <;> rfl
  · generalize hx : (makeHeader kind (leastLenCode body.length) a ++ beBytes tag ++ [rk, c]
        ++ beBytes (BitVec.ofNat 16 body.length) ++ body) = o
    simp only [ownFrame, hx]
    generalize o ++ List.replicate (16 * leastLenCode body.length - 4 - o.length) 0 = w
    simp [crcGood, leBytes]

/-- An arrival changes the link alone (R152). -/
theorem arrive_frame (which : Lane) (f : Frame) (taken : Bool) (s : State) :
    { arrive which f taken s with link := s.link } = s := rfl

/-- The lane that received a frame after its arrival (R152). -/
@[simp] theorem arrive_lane (which : Lane) (f : Frame) (taken : Bool) (s : State) :
    (arrive which f taken s).link.lane which = countArrival f (s.link.lane which) := by simp [arrive]

end Sys2Proof.Machine
end

