-- ==== Sys2Proof/Laws/Tables.lean ====
section
/-! SUPPORT. Sparse tables: what a read gives after a write, and that every table operation keeps the canonical form. -/

namespace Sys2Proof.Machine

/-- The canonical form in the words of the library: numbers strictly rising and below the bound. -/
theorem tableOk_iff {α : Type} (bound : Nat) (t : Table α) :
    tableOk bound t = true ↔ t.Pairwise (fun p q => p.1 < q.1) ∧ ∀ p ∈ t, p.1 < bound := by
  induction t with
  | nil => simp [tableOk]
  | cons p rest ih =>
    cases rest with
    | nil => simp [tableOk]
    | cons q rest =>
      simp only [tableOk, Bool.and_eq_true, decide_eq_true_eq, ih]
      constructor
      · rintro ⟨h1, h2, h3⟩
        have h4 := (List.pairwise_cons.mp h2).1
        refine ⟨List.pairwise_cons.mpr ⟨?_, h2⟩, ?_⟩
        · intro x hx
          rcases List.mem_cons.mp hx with rfl | hx
          · exact h1
          · exact Nat.lt_trans h1 (h4 x hx)
        · intro x hx
          rcases List.mem_cons.mp hx with rfl | hx
          · exact Nat.lt_trans h1 (h3 q (List.mem_cons_self ..))
          · exact h3 x hx
      · rintro ⟨h1, h2⟩
        have h3 := List.pairwise_cons.mp h1
        exact ⟨h3.1 q (List.mem_cons_self ..), h3.2, fun x hx => h2 x (List.mem_cons_of_mem _ hx)⟩

/-- What stands in a table after a write: the written record or an old one of another number. -/
theorem mem_tableSet {α : Type} {t : Table α} {k : Nat} {v : α} {p : Nat × α} (h : p ∈ tableSet t k v) :
    p = (k, v) ∨ p ∈ t := by
  induction t with
  | nil => simpa [tableSet] using h
  | cons q rest ih =>
    obtain ⟨j, w⟩ := q
    unfold tableSet at h
    split at h
    · rcases List.mem_cons.mp h with h | h
      · exact .inl h
      · exact .inr h
    · split at h
      · rcases List.mem_cons.mp h with h | h
        · exact .inl h
        · exact .inr (List.mem_cons_of_mem _ h)
      · rcases List.mem_cons.mp h with h | h
        · exact .inr (h ▸ List.mem_cons_self ..)
        · exact (ih h).imp id (List.mem_cons_of_mem _)

/-- A write keeps the canonical form. -/
theorem tableOk_tableSet {α : Type} {bound : Nat} {t : Table α} {k : Nat} (v : α) (hk : k < bound)
    (h : tableOk bound t = true) : tableOk bound (tableSet t k v) = true := by
  rw [tableOk_iff] at h ⊢
  obtain ⟨h1, h2⟩ := h
  refine ⟨?_, fun p hp => ?_⟩
  · clear h2
    induction t with
    | nil => simp [tableSet]
    | cons q rest ih =>
      obtain ⟨j, w⟩ := q
      have h3 := List.pairwise_cons.mp h1
      unfold tableSet
      split
      · next hlt =>
        refine List.pairwise_cons.mpr ⟨fun x hx => ?_, h1⟩
        rcases List.mem_cons.mp hx with rfl | hx
        · exact hlt
        · exact Nat.lt_trans hlt (h3.1 x hx)
      · split
        · next heq => subst heq; exact List.pairwise_cons.mpr ⟨h3.1, h3.2⟩
        · next h4 h5 =>
          refine List.pairwise_cons.mpr ⟨fun x hx => ?_, ih h3.2⟩
          rcases mem_tableSet hx with rfl | hx
          · simp only; omega
          · exact h3.1 x hx
  · rcases mem_tableSet hp with rfl | hp
    · exact hk
    · exact h2 p hp

/-- Taking entries out keeps the canonical form. -/
theorem tableOk_filter {α : Type} {bound : Nat} {t : Table α} (f : Nat × α → Bool) (h : tableOk bound t = true) :
    tableOk bound (t.filter f) = true := by
  rw [tableOk_iff] at h ⊢
  exact ⟨h.1.filter f, fun p hp => h.2 p (List.mem_filter.mp hp).1⟩

/-- Vacating a number keeps the canonical form. -/
theorem tableOk_tableDel {α : Type} {bound : Nat} {t : Table α} (k : Nat) (h : tableOk bound t = true) :
    tableOk bound (tableDel t k) = true := tableOk_filter _ h

/-- Changing records and no number keeps the canonical form. -/
theorem tableOk_map {α β : Type} {bound : Nat} {t : Table α} (f : Nat × α → Nat × β) (hf : ∀ p, (f p).1 = p.1)
    (h : tableOk bound t = true) : tableOk bound (t.map f) = true := by
  rw [tableOk_iff] at h ⊢
  refine ⟨?_, fun p hp => ?_⟩
  · rw [List.pairwise_map]
    exact h.1.imp (fun hlt => by rw [hf, hf]; exact hlt)
  · obtain ⟨q, hq, rfl⟩ := List.mem_map.mp hp
    rw [hf]; exact h.2 q hq

/-- Changing every record keeps the canonical form. -/
theorem tableOk_tableMap {α : Type} {bound : Nat} {t : Table α} (f : α → α) (h : tableOk bound t = true) :
    tableOk bound (tableMap t f) = true := tableOk_map _ (fun _ => rfl) h

/-- Changing one record keeps the canonical form. -/
theorem tableOk_tableModify {α : Type} {bound : Nat} {t : Table α} (k : Nat) (f : α → α) (h : tableOk bound t = true) :
    tableOk bound (tableModify t k f) = true :=
  tableOk_map _ (fun p => by split <;> rfl) h

/-- A table filled from pairs with numbers below the bound is in canonical form. -/
theorem tableOk_foldl_tableSet {α : Type} {bound : Nat} (pairs : List (Nat × α)) {t : Table α}
    (hp : ∀ p ∈ pairs, p.1 < bound) (h : tableOk bound t = true) :
    tableOk bound (pairs.foldl (fun t p => tableSet t p.1 p.2) t) = true := by
  induction pairs generalizing t with
  | nil => exact h
  | cons p rest ih =>
    exact ih (fun q hq => hp q (List.mem_cons_of_mem _ hq)) (tableOk_tableSet _ (hp p (List.mem_cons_self ..)) h)

/-- A read of the number just written. -/
theorem tableGet_tableSet_same {α : Type} (t : Table α) (k : Nat) (v : α) : tableGet (tableSet t k v) k = some v := by
  induction t with
  | nil => simp [tableSet, tableGet]
  | cons q rest ih =>
    obtain ⟨j, w⟩ := q
    unfold tableSet
    split
    · simp [tableGet]
    · split
      · simp [tableGet]
      · next h => simp [tableGet, ih, Ne.symm h]

/-- A read of another number than the one just written. -/
theorem tableGet_tableSet_ne {α : Type} (t : Table α) {j k : Nat} (v : α) (h : j ≠ k) :
    tableGet (tableSet t k v) j = tableGet t j := by
  induction t with
  | nil => simp [tableSet, tableGet, Ne.symm h]
  | cons q rest ih =>
    obtain ⟨i, w⟩ := q
    unfold tableSet
    split
    · simp [tableGet, Ne.symm h]
    · split
      · next heq => subst heq; simp [tableGet, Ne.symm h]
      · simp [tableGet, ih]

/-- A read after one record has been changed. -/
theorem tableGet_tableModify {α : Type} (t : Table α) (k j : Nat) (f : α → α) :
    tableGet (tableModify t k f) j = if j = k then (tableGet t j).map f else tableGet t j := by
  induction t with
  | nil => simp [tableModify, tableGet]
  | cons q rest ih =>
    obtain ⟨i, w⟩ := q
    simp only [tableModify, List.map_cons] at ih ⊢
    by_cases h1 : i = k <;> by_cases h2 : i = j <;> simp_all [tableGet]

/-- A read gives a record that stands in the table. -/
theorem mem_of_tableGet {α : Type} {t : Table α} {k : Nat} {v : α} (h : tableGet t k = some v) : (k, v) ∈ t := by
  induction t with
  | nil => cases h
  | cons q rest ih =>
    obtain ⟨j, w⟩ := q
    unfold tableGet at h
    split at h
    · next heq => subst heq; cases h; exact List.mem_cons_self ..
    · exact List.mem_cons_of_mem _ (ih h)

/-- The lowest vacant number is vacant and among the numbers looked at. -/
theorem lowestFree_spec {α : Type} {t : Table α} {n i k : Nat} (h : lowestFree t n i = some k) :
    tableGet t k = none ∧ i ≤ k ∧ k < i + n := by
  induction n generalizing i with
  | zero => cases h
  | succ n ih =>
    unfold lowestFree at h
    split at h
    · next hn => cases h; exact ⟨by simpa using hn, Nat.le_refl _, by omega⟩
    · have := ih h; exact ⟨this.1, by omega, by omega⟩

/-- In a table in canonical form every record is the one read under its number. -/
theorem tableGet_of_mem {α : Type} {bound : Nat} {t : Table α} {p : Nat × α} (h : tableOk bound t = true) (hp : p ∈ t) :
    tableGet t p.1 = some p.2 := by
  rw [tableOk_iff] at h
  replace h := h.1
  induction t with
  | nil => cases hp
  | cons q rest ih =>
    obtain ⟨j, w⟩ := q
    have h3 := List.pairwise_cons.mp h
    unfold tableGet
    rcases List.mem_cons.mp hp with rfl | hp
    · simp
    · rw [if_neg (Nat.ne_of_lt (h3.1 p hp))]
      exact ih hp h3.2

/-- What a read gives, in a table in canonical form, in the words of the library. -/
theorem tableGet_eq_some_iff {α : Type} {bound : Nat} {t : Table α} (h : tableOk bound t = true) (k : Nat) (v : α) :
    tableGet t k = some v ↔ (k, v) ∈ t :=
  ⟨mem_of_tableGet, fun hp => tableGet_of_mem h hp⟩

/-- A read after entries are taken out of a table in canonical form. -/
theorem tableGet_filter {α : Type} {bound : Nat} {t : Table α} (f : Nat × α → Bool) (h : tableOk bound t = true) (k : Nat) :
    tableGet (t.filter f) k = (tableGet t k).filter (fun v => f (k, v)) := by
  refine Option.ext fun v => ?_
  rw [tableGet_eq_some_iff (tableOk_filter f h), Option.filter_eq_some_iff, tableGet_eq_some_iff h, List.mem_filter]

/-- A read after every record is changed by a function of its number and itself. -/
theorem tableGet_map {α β : Type} (t : Table α) (f : Nat → α → β) (k : Nat) :
    tableGet (t.map (fun p => (p.1, f p.1 p.2))) k = (tableGet t k).map (f k) := by
  induction t with
  | nil => rfl
  | cons p rest ih =>
    obtain ⟨j, w⟩ := p
    simp only [List.map_cons, tableGet]
    split
    · next h => subst h; rfl
    · exact ih

/-! ## Vacant numbers -/

/-- What `lowestFree` finds among `n` numbers from `k` up: the lowest vacant one, or that none is vacant. -/
theorem lowestFree_iff {α : Type} (t : Table α) (n : Nat) : ∀ k,
    (∀ i, lowestFree t n k = some i ↔ k ≤ i ∧ i < k + n ∧ tableGet t i = none ∧ ∀ j, k ≤ j → j < i → tableGet t j ≠ none)
      ∧ (lowestFree t n k = none ↔ ∀ j, k ≤ j → j < k + n → tableGet t j ≠ none) := by
  induction n with
  | zero => intro k; refine ⟨fun i => ?_, ?_⟩
            · simp [lowestFree]; omega
            · simp [lowestFree]; omega
  | succ n ih =>
    intro k
    obtain ⟨h1, h2⟩ := ih (k + 1)
    unfold lowestFree
    by_cases h : tableGet t k = none
    · simp only [h, Option.isNone_none, if_true]
      refine ⟨fun i => ?_, ?_⟩
      · constructor
        · intro e; cases e; exact ⟨Nat.le_refl _, by omega, h, fun j a b => by omega⟩
        · rintro ⟨a, b, c, d⟩
          by_cases e : k = i
          · rw [e]
          · exact absurd h (d k (Nat.le_refl _) (by omega))
      · simp; exact ⟨k, Nat.le_refl _, by omega, h⟩
    · have h' : (tableGet t k).isNone = false := by cases hx : tableGet t k <;> simp_all
      simp only [h', Bool.false_eq_true, if_false]
      refine ⟨fun i => ?_, ?_⟩
      · rw [h1]
        constructor
        · rintro ⟨a, b, c, d⟩
          refine ⟨by omega, by omega, c, fun j hj hj2 => ?_⟩
          by_cases e : j = k
          · rw [e]; exact h
          · exact d j (by omega) hj2
        · rintro ⟨a, b, c, d⟩
          have : i ≠ k := fun e => h (e ▸ c)
          exact ⟨by omega, by omega, c, fun j hj hj2 => d j (by omega) hj2⟩
      · rw [h2]
        constructor
        · intro d j hj hj2
          by_cases e : j = k
          · rw [e]; exact h
          · exact d j (by omega) (by omega)
        · intro d j hj hj2; exact d j (by omega) (by omega)

/-! ## Order -/

/-- Insertion adds one element and loses none. -/
theorem insertBy_perm {α : Type} (before : α → α → Bool) (x : α) (l : List α) : (insertBy before x l).Perm (x :: l) := by
  induction l with
  | nil => exact List.Perm.refl _
  | cons y rest ih =>
    unfold insertBy
    split
    · exact List.Perm.refl _
    · exact (ih.cons y).trans (List.Perm.swap ..)

/-- Sorting keeps the elements. -/
theorem sortBy_perm {α : Type} (before : α → α → Bool) (l : List α) : (sortBy before l).Perm l := by
  induction l with
  | nil => exact List.Perm.refl _
  | cons y rest ih => exact (insertBy_perm ..).trans (ih.cons y)

/-- A sorted list is in the order of any transitive relation that the comparison decides one way or the other. -/
theorem sortBy_pairwise {α : Type} (before : α → α → Bool) (rel : α → α → Prop)
    (trans' : ∀ {x y z}, rel x y → rel y z → rel x z) (yes : ∀ {x y}, before x y = true → rel x y)
    (no : ∀ {x y}, before x y = false → rel y x) (l : List α) : (sortBy before l).Pairwise rel := by
  induction l with
  | nil => exact List.Pairwise.nil
  | cons x rest ih =>
    show (insertBy before x (sortBy before rest)).Pairwise rel
    generalize sortBy before rest = l at ih
    induction l with
    | nil => exact List.pairwise_singleton ..
    | cons y t ih2 =>
      have h0 := List.pairwise_cons.mp ih
      unfold insertBy
      split
      · next h =>
        refine List.pairwise_cons.mpr ⟨fun z hz => ?_, ih⟩
        rcases List.mem_cons.mp hz with rfl | hz
        · exact yes h
        · exact trans' (yes h) (h0.1 z hz)
      · next h =>
        refine List.pairwise_cons.mpr ⟨fun z hz => ?_, ih2 h0.2⟩
        rcases List.mem_cons.mp ((insertBy_perm before x t).mem_iff.mp hz) with rfl | hz
        · exact no (Bool.eq_false_iff.mpr h)
        · exact h0.1 z hz

end Sys2Proof.Machine
end

