-- ==== Sys2Proof/Laws/Map.lean ====
section
/-! SUPPORT. The tree of elements: what `lowest` finds in an element table, which every check of a validation goes through,
and what the placement walk takes. -/

namespace Sys2Proof.Machine

/-- No element passes a test exactly when `lowest` finds none. -/
theorem lowest_eq_none_iff {bound : Nat} {t : Table Element} (h : tableOk bound t = true) (test : Nat → Element → Bool) :
    lowest t test = none ↔ ∀ n r, tableGet t n = some r → test n r = false := by
  unfold lowest
  rw [Option.map_eq_none_iff, List.find?_eq_none]
  constructor
  · intro hn n r hr
    exact Bool.eq_false_iff.mpr (hn _ (mem_of_tableGet hr))
  · intro hn p hp ht
    rw [hn p.1 p.2 (tableGet_of_mem h hp)] at ht
    cases ht

/-- `lowest` finds the lowest-numbered element that passes a test. -/
theorem lowest_eq_some_iff {bound : Nat} {t : Table Element} (h : tableOk bound t = true) (test : Nat → Element → Bool)
    (n : Nat) : lowest t test = some n ↔
      (∃ r, tableGet t n = some r ∧ test n r = true) ∧ ∀ m r, m < n → tableGet t m = some r → test m r = false := by
  have sorted := ((tableOk_iff bound t).mp h).1
  unfold lowest
  rw [Option.map_eq_some_iff]
  constructor
  · rintro ⟨p, hp, rfl⟩
    rw [List.find?_eq_some_iff_append] at hp
    obtain ⟨ht, before, later, rfl, hno⟩ := hp
    refine ⟨⟨p.2, tableGet_of_mem h (by simp), ht⟩, fun m r hm hr => ?_⟩
    rcases List.mem_append.mp (mem_of_tableGet hr) with h1 | h1
    · simpa using hno _ h1
    · rcases List.mem_cons.mp h1 with h1 | h1
      · rw [← h1] at hm; exact absurd hm (Nat.lt_irrefl _)
      · exact absurd ((List.pairwise_cons.mp (List.pairwise_append.mp sorted).2.1).1 _ h1) (Nat.not_lt.mpr (Nat.le_of_lt hm))
  · rintro ⟨⟨r, hr, ht⟩, hmin⟩
    cases hf : t.find? (fun p => test p.1 p.2) with
    | none => exact absurd ht (List.find?_eq_none.mp hf _ (mem_of_tableGet hr))
    | some p =>
      refine ⟨p, rfl, ?_⟩
      have hp : test p.1 p.2 = true := List.find?_some (p := fun q : Nat × Element => test q.1 q.2) hf
      have hget := tableGet_of_mem h (List.mem_of_find?_eq_some hf)
      rw [List.find?_eq_some_iff_append] at hf
      obtain ⟨_, before, later, rfl, hno⟩ := hf
      rcases Nat.lt_trichotomy p.1 n with hlt | heq | hgt
      · rw [hmin _ _ hlt hget] at hp; cases hp
      · exact heq
      · rcases List.mem_append.mp (mem_of_tableGet hr) with h1 | h1
        · have := hno _ h1
          simp [ht] at this
        · rcases List.mem_cons.mp h1 with h1 | h1
          · rw [← h1]
          · exact absurd ((List.pairwise_cons.mp (List.pairwise_append.mp sorted).2.1).1 _ h1)
              (Nat.not_lt.mpr (Nat.le_of_lt hgt))

/-- The walk takes every element of the path it is given (R43, R46). -/
theorem cumulatives_fst (t : Table Element) (l : List Nat) : ∀ c, (cumulatives t c l).map Prod.fst = l := by
  induction l with
  | nil => intro c; rfl
  | cons e l ih => intro c; simp [cumulatives, ih]

end Sys2Proof.Machine
end

