-- ==== Sys2Proof/Laws/Requests.lean ====
section
/-! SUPPORT. What the execution of a request can do: the lemmas a proof about a request row cites in place of unfolding
runRequest. -/

namespace Sys2Proof.Machine

/-- `canBegin` decides `MayBegin`. -/
theorem canBegin_eq_true_iff (r : Request) (s : State) : canBegin r s = true ↔ MayBegin r s := by
  simp [canBegin, MayBegin, and_assoc]

/-- The checks of R170 pass exactly when `Executes` holds of a request that may begin. -/
theorem admissionRefusal_eq_none_iff (r : Request) (s : State) :
    admissionRefusal r s = none ↔
      r.head.bodyLen + 16 ≤ 16 * r.head.lenCode ∧ r.head.bodyLen ≤ 544 ∧ r.head.kind ∈ knownKinds
        ∧ (r.head.address = 255 → r.head.kind = 0x01) ∧ (s.image.load.isSome = true → r.head.kind = 0x01) := by
  unfold admissionRefusal broadcast
  split
  · next h => simp; omega
  · next h =>
    split
    · next h2 => simp [h2]
    · next h2 =>
      split
      · next h3 => simp; intro _ _ _ h4; exact absurd (h4 h3.1) h3.2
      · next h3 =>
        split
        · next h4 => simp; intro _ _ _ _ ; exact ⟨h4.1, h4.2⟩
        · next h4 =>
          have h2' : r.head.kind ∈ knownKinds := by simpa using h2
          refine ⟨fun _ => ⟨by omega, by omega, h2', fun h5 => ?_, fun h5 => ?_⟩, fun _ => rfl⟩
          · exact Classical.byContradiction (fun h6 => h3 ⟨h5, h6⟩)
          · exact Classical.byContradiction (fun h6 => h4 ⟨h5, h6⟩)

/-- A request that executes runs its kind's own rule. -/
theorem runRequest_of_executes {r : Request} {s : State} (own : State → State) (h : Executes r s) :
    runRequest r own s = .next (own s) := by
  unfold runRequest
  rw [if_pos ((canBegin_eq_true_iff r s).mpr h.1), (admissionRefusal_eq_none_iff r s).mpr h.2]

/-- A request that may not begin changes nothing (R168). -/
theorem runRequest_of_not_mayBegin {r : Request} {s : State} (own : State → State) (h : ¬ MayBegin r s) :
    runRequest r own s = .next s := by
  unfold runRequest
  rw [if_neg (fun h' => h ((canBegin_eq_true_iff r s).mp h'))]

/-- A request that begins and fails a check of R170 is answered with that check's code. -/
theorem runRequest_of_refusal {r : Request} {s : State} (own : State → State) {code : Completion} (h : MayBegin r s)
    (hc : admissionRefusal r s = some code) : runRequest r own s = .next (refuse r code s) := by
  unfold runRequest
  rw [if_pos ((canBegin_eq_true_iff r s).mpr h), hc]

/-- Every execution of a request answers a next state, one of three. -/
theorem runRequest_cases (r : Request) (own : State → State) (s : State) :
    runRequest r own s = .next s ∨ (∃ code, runRequest r own s = .next (refuse r code s))
      ∨ (Executes r s ∧ runRequest r own s = .next (own s)) := by
  by_cases hb : MayBegin r s
  · cases hc : admissionRefusal r s with
    | some code => exact .inr (.inl ⟨code, runRequest_of_refusal own hb hc⟩)
    | none =>
      have he : Executes r s := ⟨hb, (admissionRefusal_eq_none_iff r s).mp hc⟩
      exact .inr (.inr ⟨he, runRequest_of_executes own he⟩)
  · exact .inl (runRequest_of_not_mayBegin own hb)

/-- The answer the operations give is the reply the statements speak of. -/
theorem answer_eq_replied (r : Request) (code : Completion) (body : Body) (s : State) :
    answer r code body s = replied r code body s := rfl

/-- A refusal is a reply with an empty body. -/
theorem refuse_eq_replied (r : Request) (code : Completion) (s : State) : refuse r code s = replied r code .empty s := rfl

/-- A request that has held the head is answered as the head. -/
theorem answerHead_cons {r : Request} {rest : List Request} {s : State} (code : Completion) (body : Body)
    (h : s.mgmt.requests = r :: rest) : answerHead code body s = replied r code body s := by
  simp [answerHead, h, answer_eq_replied]

/-- `noBody` with no bytes runs the rule. -/
theorem noBody_of_zero {r : Request} (own : State → State) (s : State) (h : r.head.bodyLen = 0) : noBody r own s = own s := by
  simp [noBody, h]

end Sys2Proof.Machine
end

