-- ==== Sys2Proof/Laws/Prompt.lean ====
section
/-! SUPPORT. The turn of an event: what `inTurn` answers, and that its test is the statements' `Quiet`. -/

namespace Sys2Proof.Machine

/-- Every entry is PASS. -/
theorem allPass_eq_true_iff (entries : Table TrackEntry) : allPass entries = true ↔ ∀ p ∈ entries, p.2.state = .pass := by
  simp [allPass, TrackEntry.busy]

/-- A request may start when every entry is PASS or it is no STEP (R112, R113). -/
theorem mayStart_eq_true_iff (entries : Table TrackEntry) (c : TlmCommand) :
    mayStart entries c = true ↔ (∀ p ∈ entries, p.2.state = .pass) ∨ ∀ level hold, c ≠ .step level hold := by
  cases c <;> simp [mayStart, allPass_eq_true_iff]

/-- A request is due exactly when one may begin (R168). -/
theorem requestDue_eq_true_iff (s : State) : requestDue s = true ↔ ∃ r, MayBegin r s := by
  unfold requestDue MayBegin
  cases h : s.mgmt.requests.head? <;> simp

/-- The arbiter has a request to start exactly when one may start (R113). -/
theorem arbiterChoice_isSome_iff (s : State) : (arbiterChoice s.tlm).isSome = true ↔ TransactionMayStart s := by
  unfold arbiterChoice TransactionMayStart
  simp only [← mayStart_eq_true_iff]
  cases hq : s.tlm.searchRequest with
  | none =>
    cases hd : s.tlm.directQueue with
    | nil => simp
    | cons d rest => cases hm : mayStart s.tlm.entries d.command <;> simp [Option.filter, hm]
  | some q =>
    cases hd : s.tlm.directQueue with
    | nil =>
      cases hc : q.command == .release <;> cases hm : mayStart s.tlm.entries q.command <;>
        simp_all [Option.filter, mayStart]
    | cons d rest =>
      cases hc : q.command == .release <;> cases hm : mayStart s.tlm.entries q.command <;>
        cases hn : mayStart s.tlm.entries d.command <;> simp_all [Option.filter, mayStart]

/-- Nothing is due exactly in a quiet state. -/
theorem somethingDue_eq_false_iff (s : State) : somethingDue s = false ↔ Quiet s := by
  unfold somethingDue Quiet
  rw [Bool.or_eq_false_iff, ← Bool.not_eq_true (requestDue s), requestDue_eq_true_iff, not_exists]
  refine and_congr Iff.rfl ?_
  unfold transactionDue
  rw [← arbiterChoice_isSome_iff]
  cases s.tlm.transaction <;> simp

/-- In a quiet state an event has its effect. -/
theorem inTurn_of_quiet {s : State} (own : State → State) (h : Quiet s) : inTurn own s = .next (own s) := by
  unfold inTurn
  rw [(somethingDue_eq_false_iff s).mpr h]
  rfl

/-- While something is due to begin an event has no effect. -/
theorem inTurn_of_not_quiet {s : State} (own : State → State) (h : ¬ Quiet s) : inTurn own s = .next s := by
  have h' : somethingDue s = true := by
    cases hd : somethingDue s with
    | true => rfl
    | false => exact absurd ((somethingDue_eq_false_iff s).mp hd) h
  unfold inTurn
  rw [if_pos h']

/-- An event answers a next state: its effect in a quiet state, the same state otherwise. -/
theorem inTurn_cases (own : State → State) (s : State) :
    (Quiet s ∧ inTurn own s = .next (own s)) ∨ (¬ Quiet s ∧ inTurn own s = .next s) := by
  by_cases h : Quiet s
  · exact .inl ⟨h, inTurn_of_quiet own h⟩
  · exact .inr ⟨h, inTurn_of_not_quiet own h⟩

end Sys2Proof.Machine
end

