-- ==== Sys2Proof/Laws/Telemetry.lean ====
section
/-! SUPPORT. The check of a telemetry frame as a sum, what a leg unit makes of a frame, and the end of a transaction: what it
makes of its entry and of the table, in the words of `entryAfter` and `entriesAfter`. -/

namespace Sys2Proof.Machine

/-- Bytes added up are their sum as numbers, modulo 256. -/
theorem foldl_add_bytes (l : List Byte) (a : Byte) : l.foldl (· + ·) a = a + BitVec.ofNat 8 (l.map (·.toNat)).sum := by
  induction l generalizing a with
  | nil => simp
  | cons x xs ih =>
    simp only [List.foldl_cons, ih, List.map_cons, List.sum_cons]
    apply BitVec.eq_of_toNat_eq; simp [BitVec.toNat_add]; omega

/-- A check is good when the sum of all bytes is a multiple of 256. -/
theorem checkGood_iff_sum (f : List Byte) : checkGood f = true ↔ (f.map (·.toNat)).sum % 256 = 0 := by
  simp only [checkGood, foldl_add_bytes, beq_iff_eq]
  rw [← BitVec.toNat_inj]; simp

/-- The check of the other bytes makes the frame's check good. -/
theorem checkGood_append_checkByte (l : List Byte) : checkGood (l ++ [checkByte l]) = true := by
  have zero (x : Byte) : x + (0 - x) = 0 := by
    apply BitVec.eq_of_toNat_eq
    rw [BitVec.toNat_add, BitVec.toNat_sub]
    have := x.isLt
    simp; omega
  simp only [checkGood, checkByte, List.foldl_append, List.foldl_cons, List.foldl_nil, zero]
  rfl

/-- A frame that a unit takes changes and is answered by the command it carries. -/
theorem LegUnit.hears_of_takes {u : LegUnit} {f : List Byte} {c : TlmCommand} (h : u.takes f = some c) :
    u.hears f = (u.after c, some (u.reply c)) := by simp [LegUnit.hears, h]

/-- A frame that a unit ignores leaves it as it was, and silent. -/
theorem LegUnit.hears_of_ignores {u : LegUnit} {f : List Byte} (h : u.takes f = none) : u.hears f = (u, none) := by
  simp [LegUnit.hears, h]

/-- What the end of a transaction makes of its entry, state and figures together. -/
theorem reachability_entryAtEnd (c : TlmCommand) (reply : Option Reply) (now : Word32) (e : TrackEntry) :
    reachability now reply (entryAtEnd c reply e) = entryAfter c reply now e := by
  cases c <;> cases reply <;> cases hs : e.state <;>
    simp [reachability, entryAtEnd, entryAfter, TrackEntry.toPass, bump, hs] <;>
    exact congrArg (e.reachable && ·) (decide_eq_decide.mpr (by omega))

/-- The table after the end of a transaction with none in progress. -/
theorem dropRetained_ended (tx : Transaction) (reply : Option Reply) (s : State) (t : Telemetry) (ht : t.transaction = none)
    (he : t.entries = tableModify s.tlm.entries tx.address
      (fun e => reachability s.clocks.plantTime reply (entryAtEnd tx.command reply e))) :
    dropRetained t = { t with entries := entriesAfter tx reply s } := by
  simp only [dropRetained, entriesAfter, ht, he, reachability_entryAtEnd, tableModify]
  simp [TrackEntry.busy, bne]

end Sys2Proof.Machine
end

