-- ==== Sys2Proof/Tests/Slice0.lean ====
section
/-! SUPPORT. The model's own tests: a command ill-formed in each way that WellFormed.lean refuses, the manual's worked
figures, the commands on small states, and for every statement with hypotheses a state and operands that meet them. -/

namespace Sys2Proof.Tests

open Sys2Proof Sys2Proof.Machine

/-! ## Small states -/

/-- A request's head with a kind code and a body length, in a frame of the greatest length code. -/
def headOf (kind : Byte) (n : Nat) : ReqHead := { tag := 7, kind := kind, address := 1, lenCode := 35, bodyLen := n }

/-- The part in service: after reset, the start-up load over with a bad image. -/
def served : State := { State.reset with image := { State.reset.image with load := none } }

/-- A state in which one request waits, ready to begin. -/
def asking (r : Request) (s : State) : State := { s with mgmt := { s.mgmt with requests := [r] } }

/-- An element of the plant of section 1.3's example. -/
def el (kind : ElementKind) (parent delay : Nat) (ports : Option (Fin 256)) (leg : Nat) : Element :=
  { kind := kind, parent := some parent, delay := delay, tapPorts := ports, legAddress := leg }

/-- The plant of the chapter's example: legs at elements 2, 4, 7 and 11. -/
def plant : Table Element :=
  [ (0, { kind := .node, parent := none, delay := 0, tapPorts := none, legAddress := 0 }),
    (1, el .port 0 150 none 0), (2, el .amplifier 1 4200 none 10), (3, el .splitter 2 900 none 0),
    (4, el .tap 3 2100 (some 8) 11), (5, el .tap 4 1300 (some 4) 0), (6, el .lineEnd 5 400 none 0),
    (7, el .tap 3 1800 (some 4) 12) ]
  ++ [ (8, el .tap 7 1500 (some 2) 0), (9, el .lineEnd 8 300 none 0), (10, el .port 0 150 none 0),
    (11, el .coupler 10 3000 none 20), (12, el .tap 11 1100 (some 8) 0), (13, el .lineEnd 12 250 none 0) ]

/-- A station attached to tap 8. -/
def station8 : Attachment := { station := 99, element := 8, port := 1, drop := 180, validity := .valid }

/-- A band that is enabled and DECLARED. -/
def hotBand : BandSlot :=
  { entry := { resetBand with enabled := true, start := 2, stop := 4 }, live := { resetLive with state := .declared } }

/-- The part with the plant READY, one station attached, every leg PASS, and band 3 DECLARED. -/
def ready : State :=
  { served with
    map := { served.map with state := .ready, elements := plant, attachments := [(0, station8)] }
    tlm := rebuild [10, 11, 12, 20] served.tlm
    bands := { served.bands with bands := served.bands.bands.set 3 hotBand } }

/-- The same part with its map open. -/
def editing : State := { ready with map := { ready.map with state := .edit } }

/-- The same part with leg 11 stepped by a direct command. -/
def stepped : State :=
  { ready with tlm := { ready.tlm with
      entries := tableSet ready.tlm.entries 11
        { newEntry with state := .stepped, owner := some .direct, deadline := some 32000 } } }

/-- A level list of one leg. -/
def oneLeg : List Leg := [{ element := 2, address := 10, cls := none, drop := none }]

/-- A search of band 3 working on leg 2, in a state. -/
def searchIn (st : RunState) : SearchRecord :=
  { newSearch { band := 3, level := 1, k := 1, sk := 1, hold := 20 } ready with state := st, legs := oneLeg }

/-- The part with a search in a state. -/
def searching (x : SearchRecord) : State := { ready with search := { ready.search with record := some x } }

/-- A transaction waiting on leg 10 for a requester. -/
def waiting (who : Requester) (c : TlmCommand) (s : State) : State :=
  { s with tlm := { s.tlm with
      transaction := some { address := 10, command := c, requester := who, sentAt := 0, watchdog := 200 } } }

/-- The part with a LOCKED node-side or hub-side lane. -/
def lockedLane (run p : Nat) (rx : Option Reception) : RxLane := { powerOnLane with lock := .locked run p, rx := rx }

/-- A link whose transmitters' frames end at a byte moment. -/
def sendingUntil (m : Nat) (l : Link) : Link :=
  { l with hubTx := { l.hubTx with endsAt := m }, nodeTx := { l.nodeTx with endsAt := m } }

/-- The part with both lanes LOCKED and one frame's header received on each, long frames in transmission. -/
def receiving (h : List Byte) : State :=
  let x := lockedLane 0 (100 + headerLength h) (some { header := h, start := 100 })
  { served with link := sendingUntil 10000 { served.link with node := x, hub := x, byteTime := 100 } }

/-- The part with both lanes LOCKED between frames, with an invalid-header run, long frames in transmission. -/
def betweenFrames (run : Nat) : State :=
  { served with link :=
      sendingUntil 10000 { served.link with node := lockedLane run 200 none, hub := lockedLane run 200 none } }

/-- The part with both lanes LOCKED between frames, both transmitters' frames about to end. -/
def choosing : State := { betweenFrames 0 with link := sendingUntil 16 (betweenFrames 0).link }

/-- The same request, executing: it holds the head until its operation ends. -/
def holding (r : Request) (s : State) : State :=
  { asking r s with mgmt := { (asking r s).mgmt with executing := true } }

/-- The state a command leaves. -/
def nextOf (o : Host.Outcome State Fault Refusal) : Option State :=
  match o with
  | .next t => some t
  | .fault _ => none
  | .refused _ => none

/-- A state in which nothing is due to begin is quiet. -/
theorem quiet {s : State} (h : somethingDue s = false) : Quiet s := (somethingDue_eq_false_iff s).mp h

/-- What a header test, a check and a length ask of the request that may begin. -/
theorem executes_asking {r : Request} {s : State} (h1 : s.mgmt.executing = false) (h2 : s.mgmt.responses = [])
    (h3 : s.image.load = none) (h4 : r.head.bodyLen ≤ 544) (h5 : r.head.lenCode = 35) (h6 : r.head.kind ∈ knownKinds)
    (h7 : r.head.address ≠ 255) : Executes r (asking r s) := by
  refine ⟨⟨rfl, h1, ?_⟩, ?_, h4, h6, fun h => absurd h h7, fun h => ?_⟩
  · simp [asking, h2]
  · omega
  · simp [asking, h3] at h

/-- A listed kind code is a known one. -/
theorem mem_known {k : Byte} (h : k ∈ listedKinds) : k ∈ knownKinds := List.mem_append_left _ h

/-- DIRECT_STEP's kind code is known, whatever it is (notes/assumptions/5.md). -/
theorem directStep_known : directStepKind ∈ knownKinds := List.mem_append_right _ (List.mem_singleton.mpr rfl)

/-! ## Well-formedness: one ill-formed command for each check -/

theorem test_wf_header_length : Instr.wf (.headerTestHunting .nodeSide [0xB7, 0, 1, 23, 0xE9]) = false := by decide

theorem test_wf_header_accepts : Instr.wf (.headerTestHunting .nodeSide [0xB7, 0, 1, 23, 0xE9, 0xCF]) = true := by decide

theorem test_wf_valid_header_check : Instr.wf (.validHeader .hubSide [0xB7, 0, 1, 23, 0xE8, 0xCF]) = false := by decide

theorem test_wf_invalid_header_valid : Instr.wf (.invalidHeader .hubSide [0xB7, 0, 1, 23, 0xE9, 0xCF]) = false := by decide

theorem test_wf_frame_length : Instr.wf (.frameArrival .hubSide ([0xB7, 0, 1, 23, 0xE9, 0xCF] ++ List.replicate 9 0)) = false := by
  decide

theorem test_wf_frame_accepts : Instr.wf (.frameArrival .hubSide ([0xB7, 0, 1, 23, 0xE9, 0xCF] ++ List.replicate 10 0)) = true := by
  decide

theorem test_wf_burst_kind : Instr.wf (.burstDesc (fillFrame 23)) = false := by decide

theorem test_wf_segment_kind : Instr.wf (.spectrumSeg (fillFrame 23)) = false := by decide

theorem test_wf_request_kind : Instr.wf (.mgmtReq (fillFrame 23) .mapOpen) = false := by decide

set_option maxRecDepth 20000 in
theorem test_wf_request_crc :
    Instr.wf (.mgmtReq ([0xB7, 0x61, 1, 1, 0x9E, 0x1A, 0, 0, 0x10, 0, 0, 0] ++ [0, 0, 0, 0]) .mapOpen) = false := by decide

theorem test_wf_reply_start : Instr.wf (.tlmReplyFrame [0xD1, 11, 0x81, 1, 2, 30, 0x82]) = false := by decide

theorem test_wf_reply_length : Instr.wf (.tlmReplyFrame [0xD2, 11, 0x81, 1, 2, 30]) = false := by decide

theorem test_wf_leg_address : Instr.wf (.lapseDeadline 0) = false ∧ Instr.wf (.lapseDeadline 255) = false := by decide

theorem test_wf_slot : Instr.wf (.periodTimerExpiry 8) = false := by decide

theorem test_wf_length_code : Instr.wf (.mapOpen { headOf 0x10 0 with lenCode := 0 }) = false
    ∧ Instr.wf (.mapOpen { headOf 0x10 0 with lenCode := 36 }) = false := by decide

theorem test_wf_body_length : Instr.wf (.mapOpen { headOf 0x10 0 with bodyLen := 65536 }) = false := by decide

theorem test_wf_body_kind : Instr.wf (.mapOpen (headOf 0x11 0)) = false := by decide

theorem test_wf_body_without_bytes : Instr.wf (.statusRead (headOf 0x01 0) .unknown) = false := by decide

theorem test_wf_request_accepts : Instr.wf (.mapOpen (headOf 0x10 0)) = true := by decide

/-! ## The manual's worked figures -/

theorem test_fill_header : makeHeader kindFill 1 23 = [0xB7, 0x00, 0x01, 0x17, 0xE9, 0xCF] := by decide

theorem test_descriptor_header : makeHeader kindBurstDesc 8 23 = [0xB7, 0x41, 0x08, 0x17, 0xA1, 0x17] := by decide

theorem test_header_valid : headerValid [0xB7, 0x41, 0x08, 0x17, 0xA1, 0x17] = true
    ∧ headerValid [0xB7, 0x41, 0x24, 0x17, 0x8D, 0x33] = false := by decide

set_option maxRecDepth 20000 in
theorem test_check_value : checkValue [0x31, 0x32, 0x33, 0x34, 0x35, 0x36, 0x37, 0x38, 0x39] = 0xCBF43926 := by decide

theorem test_step_frame : commandFrame 11 (.step 2 30) = [0xD1, 0x0B, 0x01, 0x02, 0x1E, 0x03] := by decide

theorem test_ack_step :
    validReply { address := 11, command := .step 2 30, requester := .direct, sentAt := 0, watchdog := 200 }
        [0xD2, 0x0B, 0x81, 0x01, 0x02, 0x1E, 0x81]
      = some { code := .ackStep, unitState := 1, level := 2, hold := 30 } := by decide

set_option maxRecDepth 20000 in
theorem test_plant_valid : validate plant = none ∧ childLegs plant 0 = [2, 11] ∧ childLegs plant 2 = [4, 7]
    ∧ childLegs plant 7 = [] := by decide

theorem test_plant_sections : [0, 1, 10].map (sectionHead plant) = [some 0, some 0, some 0]
    ∧ [3, 6, 9, 13].map (sectionHead plant) = [some 2, some 4, some 7, some 11] := by decide

set_option maxRecDepth 20000 in
theorem test_failed_close :
    validate (tableSet (tableSet plant 14 (el .lineEnd 13 200 none 0)) 15 (el .tap 12 700 (some 6) 12))
        = some { element := 13, reason := .lineEndHasChild }
      ∧ validate (tableSet plant 15 (el .tap 12 700 (some 6) 12)) = some { element := 15, reason := .tapPortsInvalid }
      ∧ validate (tableSet plant 15 (el .tap 12 700 (some 8) 12)) = some { element := 15, reason := .legAddressDuplicate }
      ∧ validate (tableSet plant 15 (el .tap 12 700 (some 8) 13)) = none := by decide

/-- The taps of a worked case: all zero but those given. -/
def taps (given : List (Nat × (Int × Int))) : List (Int × Int) :=
  (List.range 24).map (fun j => (tableGet given j).getD (0, 0))

/-- A descriptor of the attached station. -/
def descriptor8 : Descriptor := { station := 99, channel := 2, taps := taps [(8, (1000, 0)), (11, (60, -20))] }

theorem test_clear_echo :
    let es := energies (taps [(8, (1000, 0)), (10, (20, 10)), (11, (60, -20)), (12, (40, 0))])
    eqInvalid es = false ∧ echoTap es 207 = some 11
      ∧ echoFigures es 11 1 = { tap := 11, ratio := 262, offset16 := 3, delay16 := 51, time := 3113 } := by decide

theorem test_tied_energies :
    let es := energies (taps [(8, (-2000, 1500)), (9, (300, 0)), (10, (0, 300)), (11, (100, 100))])
    echoTap es 207 = some 9
      ∧ echoFigures es 9 4 = { tap := 9, ratio := 943, offset16 := 8, delay16 := 24, time := 5859 } := by decide

theorem test_offset_tie :
    let es := energies (taps [(8, (400, 300)), (14, (30, 10)), (15, (40, 10)), (16, (20, 10))])
    echoTap es 207 = some 15
      ∧ echoFigures es 15 2 = { tap := 15, ratio := 445, offset16 := -3, delay16 := 109, time := 13306 } := by decide

theorem test_equalizers_not_analysed :
    eqInvalid (energies (taps [])) = true
      ∧ eqInvalid (energies (taps [(8, (1000, 0)), (7, (600, 800))])) = true
      ∧ echoTap (energies (taps [(8, (1000, 0)), (13, (14, 0))])) 207 = none
      ∧ eqInvalid (energies (taps [(8, (1000, 0)), (4, (500, 0))])) = false := by decide

/-- The walk of the placement chapter's worked case. -/
def walkMap : Table Element :=
  [ (0, { kind := .node, parent := none, delay := 0, tapPorts := none, legAddress := 0 }), (37, el .port 0 150 none 0),
    (38, el .splitter 37 2400 none 0), (39, el .tap 38 1600 (some 4) 0), (40, el .tap 39 1300 (some 4) 0) ]

theorem test_placement :
    place walkMap 40 180 60 3113 = (.placed, [(38, .at)])
      ∧ place walkMap 40 180 20 3113 = (.span, [(38, .span)])
      ∧ place walkMap 40 180 1000 2300 = (.placed, [(39, .at), (38, .at)])
      ∧ place walkMap 40 180 60 5680 = (.placed, [(0, .at)])
      ∧ place walkMap 40 180 60 5700 = (.beyond, [])
      ∧ place walkMap 40 1500 60 1100 = (.drop, [(40, .drop)])
      ∧ place walkMap 40 180 60 1100 = (.span, [(40, .span)]) := by decide

theorem test_corrections :
    unclamped { gain := 33096, offset := -12 } (-235) = -249
      ∧ unclamped { gain := 16384, offset := 0 } 1 = 1 ∧ unclamped { gain := 16384, offset := 0 } (-1) = -1
      ∧ unclamped { gain := 49152, offset := 0 } (-3) = -5
      ∧ clampLevel (unclamped { gain := 36045, offset := 20 } 950) = 1000
      ∧ isClamped (unclamped { gain := 36045, offset := 20 } 950) = true
      ∧ clampLevel (unclamped { gain := 32768, offset := -30 } (-980)) = -1000
      ∧ isClamped (unclamped { gain := 32768, offset := -25 } 1020) = false
      ∧ unclamped { gain := 0, offset := -700 } 400 = -700 := by decide

/-- Band 3 of the band watch chapter's worked sequence. -/
def band3 : Band :=
  { enabled := true, start := 150, stop := 209, floor := -250, declareMargin := 100, clearMargin := 60, minBins := 3,
    declareCount := 3, clearCount := 2, mode := .both }

/-- A sweep's bins with a peak and a number of bins at the peak. -/
def binsWith (peak : Level) (n : Nat) : List Level := List.replicate n peak ++ List.replicate (60 - n) (-900)

/-- The live state after the worked sequence's sweeps up to a number of them. -/
def bandRun (n : Nat) : BandLive :=
  ([(-230, 1), (-140, 5), (-120, 2), (-130, 4), (-110, 9), (-125, 6), (-170, 1), (-200, 1), (-150, 1), (-210, 1),
    (-205, 1)].take n).foldl (fun v p => liveAfter band3 (binsWith p.1 p.2) v) resetLive

set_option maxRecDepth 20000 in
theorem test_band_sequence :
    (bandRun 5).hotRun = 2 ∧ (bandRun 5).state = .clear ∧ (bandRun 5).hotCount = 3
      ∧ (bandRun 6).state = .declared ∧ (bandRun 6).longest = 3 ∧ (bandRun 6).declares = 1
      ∧ (bandRun 10).state = .declared ∧ (bandRun 11).state = .clear ∧ (bandRun 11).coldRun = 2
      ∧ bandEvent 3 406 band3 (bandRun 5) (bandRun 6) = [.declare 3 406 (-125)]
      ∧ bandEvent 3 411 band3 (bandRun 10) (bandRun 11) = [.clear 3 411] := by decide

theorem test_level_means : (-730 : Int) / 4 = -183 ∧ (-970 : Int) / 4 = -243 ∧ (-722 : Int) / 4 = -181 ∧ (-949 : Int) / 4 = -238 := by
  decide

/-- A leg that has been measured. -/
def measured (e a : Nat) (c : LegClass) (d : Int) : Leg := { element := e, address := a, cls := some c, drop := some d }

theorem test_level_decisions :
    decideLevel [measured 2 10 .full 60, { element := 11, address := 20, cls := some .unknown, drop := none }] = .descend 2
      ∧ decideLevel [measured 4 11 .partialDrop 24, measured 7 12 .full 53] = .descend 7
      ∧ decideLevel [measured 4 11 .full 53, measured 7 12 .full 53] = .descend 4
      ∧ decideLevel [measured 4 11 .partialDrop 24, measured 7 12 .noDrop 1] = .stop .split
      ∧ decideLevel [measured 4 11 .noDrop 3] = .stop .localized := by decide

theorem test_secondary :
    (descendTo plant 7 { searchIn .releasing with
        head := 2, path := [2], legs := [measured 4 11 .partialDrop 24, measured 7 12 .full 53] }).secondary
      = [{ element := 4, cls := .partialDrop, drop := 24 }] := by decide

/-- A tally record of the worked search. -/
def tallied (e : Nat) (p : Place) (votes : Nat) : TallyRecord :=
  { element := e, place := p, votes := votes, voters := [0], state := .watch, coincident := false, strongest := 1,
    firstVote := 0, lastVote := 0 }

theorem test_coincidence_list :
    coincidenceList plant 7 [(0, tallied 3 .at 10), (1, tallied 9 .at 4), (2, tallied 8 .at 6), (3, tallied 7 .span 4)]
      = [{ element := 8, place := .at }, { element := 7, place := .span }, { element := 9, place := .at }] := by decide

/-! ## States and operands that meet the statements' hypotheses -/

/-- A request with the head of its kind executes in a state that is free to begin it. -/
theorem executes_head {k : Byte} {n : Nat} {b : ReqBody} {s : State}
    (hs : s.mgmt.executing = false ∧ s.mgmt.responses = [] ∧ s.image.load = none) (hn : n ≤ 544) (hk : k ∈ knownKinds) :
    Executes ⟨headOf k n, b⟩ (asking ⟨headOf k n, b⟩ s) :=
  executes_asking hs.1 hs.2.1 hs.2.2 hn rfl hk (show (1 : Byte) ≠ 255 by decide)

/-- The part in service is free to begin a request. -/
theorem served_free : served.mgmt.executing = false ∧ served.mgmt.responses = [] ∧ served.image.load = none := ⟨rfl, rfl, rfl⟩

theorem witness_StepRunsFront :
    ({ served with pending := [.plantTimeTick] } : State).pending = .plantTimeTick :: [] ∧ served.pending = [] := ⟨rfl, rfl⟩

/-- Some kind code is unknown, whatever DIRECT_STEP's is. -/
theorem exists_unknown_kind : ∃ k : Byte, k ∉ knownKinds := by
  by_cases h : directStepKind = 0x60
  · refine ⟨0x61, ?_⟩
    rw [knownKinds, h]; decide
  · refine ⟨0x60, fun hk => ?_⟩
    rcases List.mem_append.mp hk with hk | hk
    · revert hk; decide
    · exact h (List.mem_singleton.mp hk).symm

theorem witness_RequestChecks_admission :
    (Instr.mapOpen (headOf 0x10 0)).request = some ⟨headOf 0x10 0, .mapOpen⟩
      ∧ ¬ MayBegin ⟨headOf 0x10 0, .mapOpen⟩ served
      ∧ (∃ r, MayBegin r (asking r served) ∧ 544 < r.head.bodyLen)
      ∧ (∃ r, MayBegin r (asking r served) ∧ r.head.lenCode = 2 ∧ r.head.bodyLen = 17)
      ∧ (∃ r, MayBegin r (asking r served) ∧ r.head.bodyLen = 544 ∧ r.head.lenCode = 35 ∧ r.head.kind ∉ knownKinds)
      ∧ (∃ r, MayBegin r (asking r served) ∧ r.head.address = 255 ∧ r.head.kind = 0x10)
      ∧ (∃ r, MayBegin r (asking r State.reset) ∧ State.reset.image.load.isSome = true ∧ r.head.kind = 0x10) := by
  obtain ⟨k, hk⟩ := exists_unknown_kind
  refine ⟨rfl, by unfold MayBegin; decide, ⟨⟨headOf 0x10 545, .mapOpen⟩, ⟨rfl, rfl, by decide⟩, by decide⟩,
    ⟨⟨{ headOf 0x10 17 with lenCode := 2 }, .mapOpen⟩, ⟨rfl, rfl, by decide⟩, rfl, rfl⟩,
    ⟨⟨headOf k 544, .unknownRequest .kindCode⟩, ⟨rfl, rfl, Nat.zero_lt_succ 3⟩, rfl, rfl, hk⟩,
    ⟨⟨{ headOf 0x10 0 with address := 255 }, .mapOpen⟩, ⟨rfl, rfl, by decide⟩, rfl, rfl⟩,
    ⟨⟨headOf 0x10 0, .mapOpen⟩, ⟨rfl, rfl, by decide⟩, rfl, rfl⟩⟩

theorem witness_RequestChecks_waits : Instr.plantTimeTick.request = none ∧ ¬ Quiet (asking ⟨headOf 0x10 0, .mapOpen⟩ served)
    ∧ ¬ Quiet (post 10 .release ready) := by
  refine ⟨rfl, ?_, ?_⟩ <;> rw [← somethingDue_eq_false_iff] <;> decide

theorem witness_RequestChecks_misfits :
    (∃ r s, Executes r s ∧ misfits r = true ∧ r.head.bodyLen = 1 ∧ r.body = .mapOpen)
      ∧ (∃ r s, Executes r s ∧ misfits r = true ∧ r.body = .mapWrite none ∧ s.map.state = .edit)
      ∧ (∃ r s, Executes r s ∧ misfits r = true ∧ r.body = .attachSet none ∧ s.map.state ≠ .ready)
      ∧ (∃ h s, Executes ⟨h, .unknownRequest .tallyScope⟩ s) ∧ (∃ h s, Executes ⟨h, .unknownRequest .resultForm⟩ s) :=
  ⟨⟨_, _, executes_head (k := 0x10) (n := 1) (b := .mapOpen) served_free (by decide) (mem_known (by decide)), rfl, rfl, rfl⟩,
    ⟨_, _, executes_head (k := 0x11) (n := 1) (b := .mapWrite none) (s := editing) ⟨rfl, rfl, rfl⟩ (by decide)
      (mem_known (by decide)), rfl, rfl, rfl⟩,
    ⟨_, _, executes_head (k := 0x18) (n := 1) (b := .attachSet none) served_free (by decide) (mem_known (by decide)), rfl, rfl,
      by decide⟩,
    ⟨_, _, executes_head (k := 0x21) (n := 1) served_free (by decide) (mem_known (by decide))⟩,
    ⟨_, _, executes_head (k := 0x2A) (n := 1) served_free (by decide) (mem_known (by decide))⟩⟩

theorem witness_StatusAndTableReads :
    (∃ h s, Executes ⟨h, .statusRead .common⟩ s) ∧ (∃ h s, Executes ⟨h, .statusRead (.group .reports)⟩ s)
      ∧ (∃ h s, Executes ⟨h, .tableReadChannel true⟩ s) ∧ (∃ h s, Executes ⟨h, .tableReadCorrection true⟩ s)
      ∧ (∃ h s, Executes ⟨h, .tableReadSettings true⟩ s) ∧ (∃ h s, Executes ⟨h, .tableReadReportSlot true⟩ s)
      ∧ (∃ h s, Executes ⟨h, .tableReadAlarmLine true⟩ s)
      ∧ (∃ h s, Executes ⟨h, .tableReadBand (some { start := 31, count := 8 })⟩ s)
      ∧ (∃ h s, Executes ⟨h, .tableReadBand (some { start := 32, count := 8 })⟩ s) :=
  ⟨⟨_, _, executes_head (k := 0x01) (n := 0) served_free (by decide) (mem_known (by decide))⟩,
    ⟨_, _, executes_head (k := 0x01) (n := 1) served_free (by decide) (mem_known (by decide))⟩,
    ⟨_, _, executes_head (k := 0x02) (n := 1) served_free (by decide) (mem_known (by decide))⟩,
    ⟨_, _, executes_head (k := 0x02) (n := 1) served_free (by decide) (mem_known (by decide))⟩,
    ⟨_, _, executes_head (k := 0x02) (n := 1) served_free (by decide) (mem_known (by decide))⟩,
    ⟨_, _, executes_head (k := 0x02) (n := 1) served_free (by decide) (mem_known (by decide))⟩,
    ⟨_, _, executes_head (k := 0x02) (n := 1) served_free (by decide) (mem_known (by decide))⟩,
    ⟨_, _, executes_head (k := 0x02) (n := 3) served_free (by decide) (mem_known (by decide))⟩,
    ⟨_, _, executes_head (k := 0x02) (n := 3) served_free (by decide) (mem_known (by decide))⟩⟩

/-- A kind code of R165 may execute with any body in the part in service. -/
theorem exists_executes {k : Byte} (b : ReqBody) (hk : k ∈ listedKinds) : ∃ h s, Executes ⟨h, b⟩ s ∧ h.kind = k :=
  ⟨_, _, executes_head (k := k) (n := 4) served_free (by decide) (mem_known hk), rfl⟩

theorem witness_MapAndAttachmentReads :
    (∃ h s, Executes ⟨h, .mapRead (some { start := 511, count := 32 })⟩ s ∧ h.kind = 0x15)
      ∧ (∃ h s, Executes ⟨h, .mapRead (some { start := 512, count := 0 })⟩ s ∧ h.kind = 0x15)
      ∧ (∃ h s, Executes ⟨h, .attachReadByStation (some 99)⟩ s ∧ h.kind = 0x1A)
      ∧ (∃ h s, Executes ⟨h, .attachReadByRange (some { start := 1023, count := 32 })⟩ s ∧ h.kind = 0x1A) :=
  ⟨exists_executes _ (by decide), exists_executes _ (by decide), exists_executes _ (by decide), exists_executes _ (by decide)⟩

theorem witness_TallyReads :
    (∃ h s, Executes ⟨h, .tallyReadBySlot (some { start := 255, count := 8 })⟩ s ∧ h.kind = 0x20)
      ∧ (∃ h s, Executes ⟨h, .tallyReadRanked (some { start := 256, count := 8 })⟩ s ∧ h.kind = 0x20)
      ∧ (∃ h s, Executes ⟨h, .tallyReadRanked (some { start := 0, count := 8 })⟩ s ∧ h.kind = 0x20)
      ∧ (∃ h s, Executes ⟨h, .tallyReadByKey (some (511, some .at))⟩ s ∧ h.kind = 0x20)
      ∧ (∃ h s, Executes ⟨h, .tallyReadByKey (some (511, none))⟩ s ∧ h.kind = 0x20) :=
  ⟨exists_executes _ (by decide), exists_executes _ (by decide), exists_executes _ (by decide), exists_executes _ (by decide),
    exists_executes _ (by decide)⟩

theorem witness_ResultReads :
    (∃ h s, Executes ⟨h, .resultReadLatest true⟩ s ∧ h.kind = 0x2A)
      ∧ (∃ h s, Executes ⟨h, .resultReadByNumber (some 65535)⟩ s ∧ h.kind = 0x2A)
      ∧ (∃ h s, Executes ⟨h, .resultReadByNumber (some 0)⟩ s ∧ h.kind = 0x2A)
      ∧ (∃ h s, Executes ⟨h, .unknownRequest .resultForm⟩ s ∧ h.kind = 0x2A) :=
  ⟨exists_executes _ (by decide), exists_executes _ (by decide), exists_executes _ (by decide), exists_executes _ (by decide)⟩

theorem witness_ChannelAndAlarmWrites :
    (∃ h s, Executes ⟨h, .tableWriteChannel (some { channel := 7, enabled := some true, rate := some .r128, threshold := 65535 })⟩ s
        ∧ h.kind = 0x03)
      ∧ (∃ h s, Executes ⟨h, .tableWriteAlarmLine (some { line := 3, source := some (.bandDeclared 31), polarity := some .activeLow })⟩ s
        ∧ h.kind = 0x03) :=
  ⟨exists_executes _ (by decide), exists_executes _ (by decide)⟩

/-- A band write at the ends of R81's ranges. -/
def wideBand : RawBand :=
  { band := 31, enabled := some true, start := 0, stop := 1023, floor := -1000, declareMargin := 600, clearMargin := 600,
    minBins := 64, declareCount := 15, clearCount := 15, mode := some .both }

theorem witness_BandWrite : (∃ h s, Executes ⟨h, .tableWriteBand (some wideBand)⟩ s ∧ h.kind = 0x03)
    ∧ (bandOf wideBand).isSome = true ∧ bandOf { wideBand with minBins := 65 } = none :=
  ⟨exists_executes _ (by decide), by decide, by decide⟩

theorem witness_CorrectionWrite :
    (∃ h s, Executes ⟨h, .tableWriteCorrection (some ({ start := 31, count := 1 }, [{ gain := 65535, offset := -1000 }]))⟩ s
        ∧ h.kind = 0x03)
      ∧ (∃ h s, Executes ⟨h, .tableWriteCorrection (some ({ start := 31, count := 2 },
          [{ gain := 0, offset := 0 }, { gain := 0, offset := 0 }]))⟩ s ∧ h.kind = 0x03) :=
  ⟨exists_executes _ (by decide), exists_executes _ (by decide)⟩

theorem witness_SettingsWrite :
    (∃ h s, Executes ⟨h, .tableWriteSettings (some (rawSettings { resetSettings with window := 1001 }))⟩ s ∧ h.kind = 0x03)
      ∧ settingsFault (rawSettings { resetSettings with window := 1001 }) = some .window
      ∧ (∃ h s, Executes ⟨h, .tableWriteSettings (some (rawSettings { resetSettings with promote := 1 }))⟩ s ∧ h.kind = 0x03)
      ∧ settingsFault (rawSettings { resetSettings with promote := 1 }) = none
      ∧ rawSettings { resetSettings with promote := 1 } =
          { window := 60, promote := 1, aging := 900, mFull := 20, mLow := 15, watchdog := 100, mode := some .auto,
            interval := 60, crcThreshold := 16 }
      ∧ (tallied 8 .at 6).state = .watch ∧ 1 ≤ (tallied 8 .at 6).voters.length
      ∧ settingsFault { rawSettings { resetSettings with window := 1001 } with mode := none, window := 1000 } = some .mode :=
  ⟨exists_executes _ (by decide), by decide, exists_executes _ (by decide), by decide, rfl, rfl, by decide, by decide⟩

/-- DECLARE alone. -/
def declareOnly : RawEventSet :=
  { set := { declare := true, clear := false, newSuspect := false, tallyFull := false, searchEnd := false }, other := false }

/-- An event slot's write with a band filter. -/
def eventSlot : RawSlot :=
  { slot := 7, enabled := some true, repeats := some true, kind := some .legStates, trigger := some .onEvent, period := none,
    events := some declareOnly, bandFilter := some 31 }

theorem witness_ReportSlotWrite : (∃ h s, Executes ⟨h, .tableWriteReportSlot (some eventSlot)⟩ s ∧ h.kind = 0x03)
    ∧ slotShapeOk eventSlot = true ∧ (slotOf eventSlot).isSome = true
    ∧ slotShapeOk { eventSlot with trigger := some .periodic } = false :=
  ⟨exists_executes _ (by decide), by decide, by decide, by decide⟩

theorem witness_MapOpen : ∃ h s, Executes ⟨h, .mapOpen⟩ s ∧ h.bodyLen = 0 ∧ s.map.state = .ready ∧ s.search.record = none
    ∧ allPass s.tlm.entries = true :=
  ⟨_, _, executes_head (k := 0x10) (n := 0) (s := ready) ⟨rfl, rfl, rfl⟩ (by decide) (mem_known (by decide)), rfl, rfl, rfl, by decide⟩

/-- A LINE_END's write at the end of the numbers. -/
def farEnd : RawElement :=
  { number := 511, kind := some .lineEnd, parent := some 8, delay := 65535, tapPorts := none, legAddress := 254 }

theorem witness_MapEdits :
    (∃ h s, Executes ⟨h, .mapWrite (some (1, [farEnd]))⟩ s ∧ s.map.state = .edit)
      ∧ (∃ h s, Executes ⟨h, .mapDelete (some (1, [511]))⟩ s ∧ s.map.state = .edit)
      ∧ (∃ h s, Executes ⟨h, .mapClear⟩ s ∧ s.map.state = .edit ∧ h.bodyLen = 0) :=
  ⟨⟨_, _, executes_head (k := 0x11) (n := 9) (s := editing) ⟨rfl, rfl, rfl⟩ (by decide) (mem_known (by decide)), rfl⟩,
    ⟨_, _, executes_head (k := 0x12) (n := 3) (s := editing) ⟨rfl, rfl, rfl⟩ (by decide) (mem_known (by decide)), rfl⟩,
    ⟨_, _, executes_head (k := 0x13) (n := 0) (s := editing) ⟨rfl, rfl, rfl⟩ (by decide) (mem_known (by decide)), rfl, rfl⟩⟩

set_option maxRecDepth 20000 in
theorem witness_MapCloseAndCompletion :
    (∃ h s, Executes ⟨h, .mapClose⟩ s ∧ h.bodyLen = 0 ∧ s.map.state = .edit ∧ allPass s.tlm.entries = true)
      ∧ (∃ (r : Request) (s : State), Quiet s ∧ s.map.closing = true ∧ s.mgmt.requests = r :: []
        ∧ validate s.map.elements = none)
      ∧ tableOk 512 plant = true ∧ tableOk 255 stepped.tlm.entries = true :=
  ⟨⟨_, _, executes_head (k := 0x14) (n := 0) (s := editing) ⟨rfl, rfl, rfl⟩ (by decide) (mem_known (by decide)), rfl, rfl, by decide⟩,
    ⟨⟨headOf 0x14 0, .mapClose⟩,
      holding ⟨headOf 0x14 0, .mapClose⟩ { editing with map := { editing.map with closing := true } },
      quiet (by decide), rfl, rfl, by decide⟩, by decide, by decide⟩

set_option maxRecDepth 20000 in
/-- The first check of R12 that fails, with the lowest element that fails it. -/
theorem test_failsCheck : failsCheck (tableSet plant 15 (el .tap 12 700 (some 6) 12)) .tapPortsInvalid 15
    ∧ failsCheck (tableSet plant 15 (el .tap 12 700 (some 8) 12)) .legAddressDuplicate 15 :=
  ⟨⟨el .tap 12 700 (some 6) 12, by decide, rfl, by decide, by decide, by decide⟩,
    ⟨el .tap 12 700 (some 8) 12, by decide, by decide, 7, el .tap 3 1800 (some 4) 12, by decide, by decide, rfl⟩⟩

theorem test_rebuild : (tableGet (rebuild [] stepped.tlm).entries 11).map (fun e => (e.state, e.retained)) = some (.stepped, true)
    ∧ tableGet (rebuild [] stepped.tlm).entries 10 = none
    ∧ (tableGet (rebuild [11, 30] stepped.tlm).entries 11).map (·.retained) = some false
    ∧ tableGet (rebuild [11, 30] stepped.tlm).entries 30 = some newEntry := by decide

theorem witness_AttachSet : ∃ h s, Executes ⟨h, .attachSet (some { station := 100, element := 8, port := 2, drop := 2000 })⟩ s
    ∧ s.map.state = .ready ∧ attachOk s.map.elements { station := 100, element := 8, port := 2, drop := 2000 } = true
    ∧ lowestFree s.map.attachments 1024 0 = some 1 :=
  ⟨_, _, executes_head (k := 0x18) (n := 9) (s := ready) ⟨rfl, rfl, rfl⟩ (by decide) (mem_known (by decide)), rfl, by decide, by decide⟩

theorem witness_AttachDelete : (∃ h s, Executes ⟨h, .attachDelete (some 99)⟩ s
      ∧ s.map.attachments.find? (fun p => p.2.station == 99) = some (0, station8))
    ∧ ∃ h s, Executes ⟨h, .attachDelete (some 98)⟩ s ∧ s.map.attachments.find? (fun p => p.2.station == 98) = none :=
  ⟨⟨_, _, executes_head (k := 0x19) (n := 4) (s := ready) ⟨rfl, rfl, rfl⟩ (by decide) (mem_known (by decide)), by decide⟩,
    ⟨_, _, executes_head (k := 0x19) (n := 4) (s := ready) ⟨rfl, rfl, rfl⟩ (by decide) (mem_known (by decide)), by decide⟩⟩

/-- A record that loses a voter falls to WATCH with its votes kept, and no slot hears of it (R58). -/
theorem test_voter_removed :
    let r := { tallied 8 .at 6 with voters := [4, 7, 9], state := .suspect }
    let s := { ready with tally := { ready.tally with records := [(0, r)] } }
    (removeVoter 7 s).tally.records = [(0, { r with voters := [4, 9], state := .watch })]
      ∧ (removeVoter 7 s).reports = s.reports := by decide

theorem witness_TallyClearAndCounterSnapshot : (∃ h s, Executes ⟨h, .tallyClearAll true⟩ s ∧ h.kind = 0x21)
    ∧ (∃ h s, Executes ⟨h, .tallyClearFlags true⟩ s ∧ h.kind = 0x21)
    ∧ ∃ h s, Executes ⟨h, .counterSnapshot⟩ s ∧ h.bodyLen = 0 ∧ s.mgmt.settings.mode = .manual :=
  ⟨exists_executes _ (by decide), exists_executes _ (by decide),
    ⟨_, _, executes_head (k := 0x38) (n := 0)
      (s := { served with mgmt := { served.mgmt with settings := { resetSettings with mode := .manual } } }) ⟨rfl, rfl, rfl⟩
      (by decide) (mem_known (by decide)), rfl, rfl⟩⟩

/-- A search's five fields at the ends of their ranges. -/
def search3 : RawSearch := { band := 3, level := 3, k := 16, sk := 8, hold := 60 }

theorem witness_SearchStart : ∃ h s l legs, Executes ⟨h, .searchStart (some search3)⟩ s ∧ searchRefusal search3 s = none
    ∧ levelList s.map.elements 0 = l :: legs ∧ unreachable s.tlm.entries l.address = false
    ∧ (∃ e, tableGet s.tlm.entries l.address = some e ∧ e.reachable = true)
    ∧ searchRefusal { search3 with band := 31 } s = some .noBand ∧ searchRefusal { search3 with band := 32 } s = some .badIndex :=
  ⟨_, _, { element := 2, address := 10, cls := none, drop := none }, [{ element := 11, address := 20, cls := none, drop := none }],
    executes_head (k := 0x28) (n := 5) (s := ready) ⟨rfl, rfl, rfl⟩ (by decide) (mem_known (by decide)), by decide, by decide,
    by decide, ⟨newEntry, by decide, rfl⟩, by decide, by decide⟩

theorem witness_SearchStart_unreachable : ∃ (entries : Table TrackEntry) (x : SearchRecord) (l : Leg) (e : TrackEntry),
    x.legs[x.current]? = some l ∧ tableGet entries l.address = some e ∧ e.reachable = false :=
  ⟨[(10, { newEntry with reachable := false, timeouts := 3 })], searchIn .baseline,
    { element := 2, address := 10, cls := none, drop := none }, { newEntry with reachable := false, timeouts := 3 }, rfl, rfl, rfl⟩

theorem witness_SearchAbort : ∀ st : RunState, ∃ h s x l, Executes ⟨h, .searchAbort⟩ s ∧ h.bodyLen = 0
    ∧ s.search.record = some x ∧ x.state = st ∧ x.legs[x.current]? = some l ∧ s.tlm.searchRequest = none :=
  fun st => ⟨_, _, searchIn st, { element := 2, address := 10, cls := none, drop := none },
    executes_head (k := 0x29) (n := 0) (s := searching (searchIn st)) ⟨rfl, rfl, rfl⟩ (by decide) (mem_known (by decide)), rfl, rfl, rfl,
    rfl, rfl⟩

theorem witness_SearchAbort_pending : ∃ h s x, Executes ⟨h, .searchAbort⟩ s ∧ h.bodyLen = 0 ∧ s.search.record = some x
    ∧ x.state = .stepping ∧ s.tlm.searchRequest ≠ none :=
  ⟨_, _, searchIn .stepping, executes_head (k := 0x29) (n := 0) (s := post 10 (.step 1 20) (searching (searchIn .stepping)))
    ⟨rfl, rfl, rfl⟩ (by decide) (mem_known (by decide)), rfl, rfl, rfl, by decide⟩

theorem witness_SearchAbort_idle : ∃ h s, Executes ⟨h, .searchAbort⟩ s ∧ h.bodyLen = 0 ∧ s.search.record = none :=
  ⟨_, _, executes_head (k := 0x29) (n := 0) served_free (by decide) (mem_known (by decide)), rfl, rfl⟩

theorem witness_DirectCommands :
    (∃ h s, Executes ⟨h, .directStep (some { address := 11, level := 3, hold := 60 })⟩ s
        ∧ directStepRefusal { address := 11, level := 3, hold := 60 } s = none)
      ∧ (∃ h s, Executes ⟨h, .directRelease (some 20)⟩ s ∧ directReleaseRefusal 20 s = none)
      ∧ (∃ h s, Executes ⟨h, .directQuery (some 10)⟩ s ∧ directQueryRefusal 10 s = none)
      ∧ directQueryRefusal 0 ready = some .badValue ∧ directQueryRefusal 254 ready = some .notFound :=
  ⟨⟨_, _, executes_head (n := 3) (s := ready) ⟨rfl, rfl, rfl⟩ (by decide) directStep_known, by decide⟩,
    ⟨_, _, executes_head (k := 0x31) (n := 1) (s := ready) ⟨rfl, rfl, rfl⟩ (by decide) (mem_known (by decide)), by decide⟩,
    ⟨_, _, executes_head (k := 0x32) (n := 1) (s := ready) ⟨rfl, rfl, rfl⟩ (by decide) (mem_known (by decide)), by decide⟩,
    by decide, by decide⟩

theorem witness_PlantTimeAndAddress : Quiet served
    ∧ (∃ h s, Executes ⟨h, .timeSet (some 0xFFFFFFFF)⟩ s ∧ h.kind = 0x41)
    ∧ (∃ h s, Executes ⟨h, .addressSet (some 254)⟩ s ∧ h.kind = 0x40)
    ∧ ∃ h s, Executes ⟨h, .addressSet (some 0)⟩ s ∧ h.kind = 0x40 :=
  ⟨quiet (by decide), exists_executes _ (by decide), exists_executes _ (by decide), exists_executes _ (by decide)⟩

/-- A state in which a request waits for a load. -/
def loading (who : LoadOrigin) (s : State) : State :=
  { holding ⟨headOf 0x48 0, .imageLoad⟩ s with image := { s.image with load := some who } }

/-- The same state with the plant's own image in the flash. -/
def withImage (s : State) : State := { s with image := { s.image with flash := savedFlash (imageRecords ready) } }

theorem witness_ImageLoad_bad : (∃ h s, Executes ⟨h, .imageLoad⟩ s ∧ h.bodyLen = 0)
    ∧ (Quiet State.reset ∧ State.reset.image.load = some .startUp ∧ imageGood State.reset.image.flash = false)
    ∧ ∀ who, Quiet (loading who served) ∧ (loading who served).image.load = some who
      ∧ (loading who served).mgmt.requests = ⟨headOf 0x48 0, .imageLoad⟩ :: [] ∧ imageGood (loading who served).image.flash = false :=
  ⟨⟨_, _, executes_head (k := 0x48) (n := 0) served_free (by decide) (mem_known (by decide)), rfl⟩,
    ⟨quiet (by decide), rfl, rfl⟩, fun _ => ⟨quiet rfl, rfl, rfl, rfl⟩⟩

/-- The image of the plant passes the record checks and the counts of R192. -/
theorem plant_image_records : countsOk (imageRecords ready) = true ∧ (imageRecords ready).all recordOk = true := by
  constructor <;> decide +kernel

/-- So it is a good image. -/
theorem plant_image_good : imageGood (savedFlash (imageRecords ready)) = true := by
  simp [imageGood, savedFlash, plant_image_records.1, plant_image_records.2]

theorem table_law_of_plant : TableLaw ready := by
  unfold TableLaw
  decide +kernel

theorem table_law_of_reset : TableLaw State.reset := by
  unfold TableLaw
  decide +kernel

theorem witness_ImageLoad_good :
    (Quiet (withImage State.reset) ∧ (withImage State.reset).image.load = some .startUp
        ∧ imageGood (withImage State.reset).image.flash = true ∧ TableLaw (withImage State.reset))
      ∧ ∀ who, Quiet (withImage (loading who ready)) ∧ (withImage (loading who ready)).image.load = some who
        ∧ (withImage (loading who ready)).mgmt.requests = ⟨headOf 0x48 0, .imageLoad⟩ :: []
        ∧ imageGood (withImage (loading who ready)).image.flash = true ∧ TableLaw (withImage (loading who ready)) :=
  ⟨⟨quiet rfl, rfl, plant_image_good, table_law_of_reset⟩,
    fun _ => ⟨quiet rfl, rfl, rfl, plant_image_good, table_law_of_plant⟩⟩

theorem witness_ImageSave : (∃ h s, Executes ⟨h, .imageSave⟩ s ∧ h.bodyLen = 0 ∧ s.map.state ≠ .edit)
    ∧ (∃ h s, Executes ⟨h, .imageSave⟩ s ∧ h.bodyLen = 0 ∧ s.map.state = .edit)
    ∧ (∃ h s, Executes ⟨h, .imageSave⟩ s ∧ h.bodyLen = 1)
    ∧ ∃ (l : List ImageRecord) (r : Request) (rest : List Request) (s : State),
        Quiet s ∧ s.image.saving = some l ∧ s.mgmt.requests = r :: rest :=
  ⟨⟨_, _, executes_head (k := 0x49) (n := 0) served_free (by decide) (mem_known (by decide)), rfl, by decide⟩,
    ⟨_, _, executes_head (k := 0x49) (n := 0) (s := editing) ⟨rfl, rfl, rfl⟩ (by decide) (mem_known (by decide)), rfl, rfl⟩,
    ⟨_, _, executes_head (k := 0x49) (n := 1) served_free (by decide) (mem_known (by decide)), rfl⟩,
    ⟨[], ⟨headOf 0x49 0, .imageSave⟩, [],
      holding ⟨headOf 0x49 0, .imageSave⟩ { served with image := { served.image with saving := some [] } },
      quiet (by decide), rfl, rfl⟩⟩

/-- A save writes one record for each entry of each table, a STALE attachment's with its index among them (R195). -/
theorem test_save_records :
    let s := { ready with map := { ready.map with attachments := [(5, { station8 with validity := .stale })] } }
    (imageRecords s).length = 1 + 8 + 32 + 32 + 8 + 4 + 14 + 1 ∧ .attachment 5 (rawAttach station8) ∈ imageRecords s := by
  decide +kernel

theorem witness_ResetEngines : ∃ h s, Executes ⟨h, .resetEngines⟩ s ∧ h.bodyLen = 0 ∧ s.map.state = .ready :=
  ⟨_, _, executes_head (k := 0x50) (n := 0) (s := stepped) ⟨rfl, rfl, rfl⟩ (by decide) (mem_known (by decide)), rfl, rfl⟩

theorem witness_ResetAll : ∃ h s, Executes ⟨h, .resetAll⟩ s ∧ h.bodyLen = 0 ∧ allPass s.tlm.entries = false :=
  ⟨_, _, executes_head (k := 0x51) (n := 0) (s := stepped) ⟨rfl, rfl, rfl⟩ (by decide) (mem_known (by decide)), rfl, by decide⟩

/-! ### The link -/

/-- The part with the hub-side lane's signal absent. -/
def silent : State := { served with link := { served.link with hub := { powerOnLane with signal := false } } }

theorem witness_SignalLossAndReturn :
    let r := receiving [0xB7, 0, 1, 23, 0xE9, 0xCF]
    (somethingDue r = false ∧ r.link.hub.lock = .locked 0 116 ∧ r.link.node.lock = .locked 0 116)
      ∧ (somethingDue served = false ∧ (served.link.lane .nodeSide).lock = .hunting 0 none)
      ∧ (somethingDue silent = false ∧ (silent.link.lane .hubSide).signal = false)
      ∧ (searching (searchIn .baseline)).search.record = some (searchIn .baseline) ∧ served.search.record = none := by decide

/-- A search in each state, with its STEP waiting or not, and its current leg. -/
theorem witness_SignalLossAndReturn_causes : ∀ st, (searching (searchIn st)).search.record = some (searchIn st)
    ∧ (searchIn st).state = st ∧ (searching (searchIn st)).tlm.searchRequest = none
    ∧ (post 10 (.step 1 20) (searching (searchIn st))).tlm.searchRequest ≠ none
    ∧ (searchIn st).legs[(searchIn st).current]? = some { element := 2, address := 10, cls := none, drop := none } := by
  intro st
  cases st <;> decide

/-- Whatever the cause, a search in MEASURE discards its peaks, waits in ENDING and posts its leg's RELEASE (R138). -/
theorem test_cause_in_measure : ∀ cause ∈ [SearchOutcome.linkLost, .ingressGone, .aborted],
    let t := fixCause cause (searching { searchIn .measure with peakSum := -900, collected := 1 })
    t.search.record.map (fun x => (x.state, x.cause, x.peakSum, x.collected)) = some (.ending, some cause, 0, 0)
      ∧ t.tlm.searchRequest = some { address := 10, command := .release } := by decide

theorem witness_HeaderTests :
    (somethingDue served = false ∧ (served.link.lane .hubSide).lock = .hunting 0 none ∧ (served.link.lane .hubSide).signal = true
        ∧ inOrder served.link 0 = true)
      ∧ (somethingDue (betweenFrames 3) = false ∧ inOrder (betweenFrames 3).link 200 = true
        ∧ ((betweenFrames 3).link.lane .nodeSide).lock = .locked 3 200 ∧ (betweenFrames 3).link.node.rx = none
        ∧ (betweenFrames 3).link.hub.lock = .locked 3 200 ∧ (betweenFrames 3).link.hub.rx = none)
      ∧ (somethingDue (betweenFrames 2) = false ∧ inOrder (betweenFrames 2).link 200 = true
        ∧ ((betweenFrames 2).link.lane .hubSide).lock = .locked 2 200 ∧ ((betweenFrames 2).link.lane .hubSide).rx = none)
      ∧ headerValid [0xB7, 0, 1, 23, 0xE9, 0xCF] = true ∧ headerValid [0xB7, 0, 1, 23, 0xE9, 0xCE] = false
      ∧ inOrder (betweenFrames 2).link 201 = false := by decide

/-- A frame's bytes followed by their check value: a frame with a good CRC. -/
def closed (bytes : List Byte) : Frame := bytes ++ leBytes (checkValue bytes)

/-- A frame that ends in its check value has a good CRC. -/
theorem crcGood_closed (bytes : List Byte) : crcGood (closed bytes) = true := by simp [crcGood, closed, leBytes]

/-- Such a frame is four bytes longer than the bytes checked. -/
theorem length_closed (bytes : List Byte) : (closed bytes).length = bytes.length + 4 := by simp [closed, leBytes]

/-- A descriptor frame of zeros with a good CRC. -/
def descriptorFrame : Frame := closed (makeHeader kindBurstDesc 8 23 ++ List.replicate 118 0)

theorem witness_FrameArrivals :
    Quiet (receiving (makeHeader kindBurstDesc 8 23))
      ∧ arrives .nodeSide descriptorFrame (receiving (makeHeader kindBurstDesc 8 23)).link = true
      ∧ headerKind descriptorFrame = 0x41 ∧ crcGood descriptorFrame = true
      ∧ Quiet (receiving (makeHeader kindFill 1 23))
      ∧ arrives .hubSide (fillFrame 23) (receiving (makeHeader kindFill 1 23)).link = true
      ∧ hasOwnRow .hubSide (fillFrame 23) (receiving (makeHeader kindFill 1 23)) = false :=
  ⟨quiet (by decide), by decide +kernel, rfl, crcGood_closed _, quiet (by decide), by decide +kernel, by decide +kernel⟩

theorem witness_FrameArrivals_descriptor : descriptorFrame.length = 128 := by
  rw [descriptorFrame, length_closed, List.length_append, List.length_replicate]
  rfl

/-- A segment frame of zeros with an index and a good CRC. -/
def segmentFrame (sweep index : Byte) : Frame :=
  closed (makeHeader kindSpectrumSeg 33 23 ++ [0, sweep, index] ++ List.replicate 515 0)

/-- The part with segment 3 of sweep 5 in reception, the three before it assembled. -/
def lastSegment : State :=
  { receiving (makeHeader kindSpectrumSeg 33 23) with
    sweep := { powerOnSweep with assembly := .assembling 5 3 (List.replicate 768 0) } }

theorem witness_SpectrumSegment : Quiet lastSegment ∧ arrives .nodeSide (segmentFrame 5 3) lastSegment.link = true
    ∧ headerKind (segmentFrame 5 3) = 0x42 ∧ crcGood (segmentFrame 5 3) = true ∧ (segmentFrame 5 3).length = 528
    ∧ (byteAt (segmentFrame 5 3) 8).toNat = 3 ∧ beNat (field (segmentFrame 5 3) 6 2) = 5
    ∧ lastSegment.sweep.assembly = .assembling 5 3 (List.replicate 768 0)
    ∧ (receiving (makeHeader kindSpectrumSeg 33 23)).sweep.assembly = .idle := by
  have hl : (segmentFrame 5 3).length = 528 := by
    rw [segmentFrame, length_closed, List.length_append, List.length_append, List.length_replicate]; rfl
  refine ⟨quiet rfl, ?_, rfl, crcGood_closed _, hl, rfl, rfl, rfl, rfl⟩
  have hr : isReceived (lastSegment.link.lane .nodeSide) (segmentFrame 5 3) = true := by
    show (true && (some _ : Option Reception).any _) = true
    simp only [Option.any_some, hl, Bool.true_and]
    rfl
  rw [arrives, hr]
  decide

/-- A MGMT_REQ frame of a MAP_OPEN with a good CRC. -/
def requestFrame : Frame :=
  closed (makeHeader kindMgmtReq 1 1 ++ [0, 9, 0x10, 0, 0, 0])

theorem witness_ManagementRequestTaken :
    let s := receiving (makeHeader kindMgmtReq 1 1)
    somethingDue s = false ∧ arrives .hubSide requestFrame s.link = true ∧ headerKind requestFrame = 0x61
      ∧ crcGood requestFrame = true ∧ headerAddress requestFrame = s.mgmt.nodeAddress
      ∧ ReqBody.mapOpen.fitsKind (byteAt requestFrame 8) = true := by decide +kernel

/-- A response waiting. -/
def response1 : Response := { address := 1, tag := 7, kind := 0x10, code := .ok, body := .empty }

/-- The first twelve bytes of its frame: header, tag, request kind, completion code and body length (R147, R148). -/
theorem test_response_frame : response1.frame.take 12 = [0xB7, 0x62, 1, 1, 0x9D, 0x1B, 0, 7, 0x10, 0, 0, 0]
    ∧ response1.frame.length = 16 := by decide +kernel

/-- A slot queued for its event. -/
def queued1 : QueuedSlot := { slot := 0, cause := .now, count := 1 }

theorem witness_HubTransmitterChoice :
    somethingDue choosing = false ∧ hubChooses choosing.link = true
      ∧ occupancy (notePeak (reachByte choosing.link.hubTx.endsAt choosing.link)) < 3072
      ∧ ({ choosing with mgmt := { choosing.mgmt with responses := [response1] } } : State).mgmt.responses = response1 :: []
      ∧ ({ choosing with reports := { choosing.reports with queue := [queued1] } } : State).reports.queue = queued1 :: []
      ∧ choosing.reports.slots[queued1.slot]? = some { entry := resetSlotEntry, due := none }
      ∧ choosing.mgmt.responses = [] ∧ choosing.reports.queue = [] ∧ choosing.link.through = []
      ∧ hubChooses { choosing.link with through := [fillFrame 1] } = true
      ∧ (notePeak (reachByte 16 { choosing.link with through := [fillFrame 1] })).through = fillFrame 1 :: []
      ∧ hubChooses { choosing.link with through := List.replicate 192 (fillFrame 1) } = true
      ∧ 3072 ≤ occupancy (notePeak (reachByte 16 { choosing.link with through := List.replicate 192 (fillFrame 1) })) := by
  decide +kernel

/-- The part about to choose, with a frame at the head of the node-bound store. -/
def choosingNode (taken : Bool) : State :=
  { choosing with link := { choosing.link with store := [{ frame := fillFrame 1, taken := taken }] } }

theorem witness_NodeTransmitterChoice : somethingDue choosing = false ∧ nodeChooses choosing.link = true
    ∧ choosing.link.store = []
    ∧ (∀ taken, somethingDue (choosingNode taken) = false ∧ nodeChooses (choosingNode taken).link = true
      ∧ (choosingNode taken).link.store = { frame := fillFrame 1, taken := taken } :: []) := by decide +kernel

/-! ### Timers, analysis, telemetry and search -/

/-- An enabled PERIODIC slot whose timer runs. -/
def periodicSlot : ReportSlot :=
  { entry := { resetSlotEntry with enabled := true, trigger := .periodic, period := some 3600 }, due := some 3600000 }

/-- The part with slot 7's period timer running. -/
def timing : State := { served with reports := { served.reports with slots := served.reports.slots.set 7 periodicSlot } }

theorem witness_TimerExpiries : somethingDue served = false ∧ served.bands.intervalDue = some 60000
    ∧ somethingDue timing = false ∧ timing.reports.slots[7]? = some periodicSlot
    ∧ periodicSlot.due = some 3600000 ∧ periodicSlot.entry.enabled = true ∧ periodicSlot.entry.trigger = .periodic
    ∧ periodicSlot.entry.period = some 3600 := by decide

theorem witness_TimerExpiries_first : ∀ (m d : Nat) (y : ReportSlot), timing.reports.slots[m]? = some y → y.due = some d →
    3600000 < d ∨ (3600000 = d ∧ 7 ≤ m) := by
  have h : ∀ m < 8, ∀ y ∈ timing.reports.slots[m]?, ∀ d ∈ y.due, 3600000 < d ∨ (3600000 = d ∧ 7 ≤ m) := by decide
  intro m d y hm hd
  obtain ⟨hlt, _⟩ := List.getElem?_eq_some_iff.mp hm
  exact h m hlt y hm d hd

/-- A slot's timer does not expire before a lower slot's of the same moment (R182). -/
theorem test_periodTimers_in_order :
    let s := { timing with reports := { timing.reports with slots := timing.reports.slots.set 2 periodicSlot } }
    (nextOf (execPeriodTimerExpiry 7 s)).map (·.reports.queue) = some []
      ∧ (nextOf (execPeriodTimerExpiry 2 s)).map (·.reports.queue)
          = some [{ slot := 2, cause := .periodic, count := 1 }] := by decide

/-- The part with a descriptor queued and perhaps an analysis in progress. -/
def analysing (a : Option Analysis) : State :=
  { ready with echo := { ready.echo with queue := [descriptor8], analysis := a } }

/-- An analysis whose echo waits for the hand-off check. -/
def echoing : Analysis :=
  { taken := some resetChannel, mapLeft := false, stage := .echo 0 8 1 (echoFigures (energies descriptor8.taps) 11 1) }

theorem witness_AnalysisBegin : somethingDue (analysing none) = false ∧ (analysing none).echo.queue = descriptor8 :: []
    ∧ (analysing none).echo.analysis = none := by decide

/-- A descriptor that waits unanalysed holds no other event back (R28): plant time ticks, and the analysis begins after it. -/
theorem test_analysis_waits : (nextOf (execPlantTimeTick (analysing none))).map (fun t => (t.clocks.plantTime, t.echo.analysis.isSome))
      = some (1, false)
    ∧ ((nextOf (execPlantTimeTick (analysing none))).bind (fun t => nextOf (execAnalysisBegin t))).map (fun t => t.echo.analysis.isSome)
      = some true := by decide

theorem witness_AnalysisCompletion : somethingDue (analysing (some echoing)) = false
    ∧ (analysing (some echoing)).echo.analysis = some echoing
    ∧ (analysing (some echoing)).echo.queue = descriptor8 :: [] ∧ (analysing (some echoing)).map.state = .ready
    ∧ tableGet (analysing (some echoing)).map.attachments 0 = some station8 ∧ station8.station = descriptor8.station
    ∧ suppressed (analysing (some echoing)) 8 = false
    ∧ suppressed { analysing (some echoing) with tlm := { ready.tlm with
        entries := tableSet ready.tlm.entries 12 { newEntry with state := .stepped } } } 8 = true
    ∧ tableGet (analysing (some echoing)).map.attachments 1 = none := by decide

theorem witness_EchoArithmetic : 0 < energyAt (energies descriptor8.taps) 8 ∧ 0 < energyAt (energies descriptor8.taps) 11
    ∧ echoTap (energies descriptor8.taps) 207 = some 11 ∧ ∀ j, j < 24 → 0 ≤ energyAt (energies descriptor8.taps) j := by decide

theorem witness_Placement : (cumulatives walkMap 180 (pathOf walkMap 40))[2]? = some (38, 3080)
    ∧ (cumulatives walkMap 180 (pathOf walkMap 40))[3]? = some (37, 5480)
    ∧ (cumulatives walkMap 180 (pathOf walkMap 40)).getLast? = some (0, 5630)
    ∧ validate walkMap = none ∧ (tableGet walkMap 40).isSome = true := by decide

/-- A table of 256 records, every one WATCH with one vote. -/
def fullTally : Table TallyRecord := (List.range 256).map (fun i => (i, tallied i .at 1))

theorem witness_Votes : findKey [(0, tallied 8 .at 6)] (8, .at) = some (0, tallied 8 .at 6)
    ∧ findKey fullTally (300, .span) = none ∧ lowestFree ([(0, tallied 8 .at 6)] : Table TallyRecord) 256 0 = some 1
    ∧ lowestFree fullTally 256 0 = none ∧ lowestFree fullTally 257 0 = some 256 ∧ (victim fullTally []).isSome = true
    ∧ victim (fullTally.map (fun p => (p.1, { p.2 with state := .suspect }))) [] = none := by decide +kernel

theorem witness_BandClassification : binsWith (-140) 5 ≠ [] ∧ classifySweep band3 (binsWith (-140) 5) = .hot
    ∧ classifySweep band3 (binsWith (-150) 1) = .neither ∧ classifySweep band3 (binsWith (-191) 60) = .cold
    ∧ classifySweep band3 (binsWith (-190) 60) = .neither ∧ ready.search.record = none := by decide +kernel

/-- The unit of leg 11, in PASS. -/
def unit11 : LegUnit := { address := 11, step := none }

theorem witness_TransactionStart : ready.tlm.transaction = none ∧ allPass ready.tlm.entries = true ∧ allPass stepped.tlm.entries = false
    ∧ (post 10 .release ready).tlm.searchRequest = some { address := 10, command := .release }
    ∧ (post 10 (.step 1 20) ready).tlm.searchRequest = some { address := 10, command := .step 1 20 }
    ∧ (post 10 (.step 1 20) stepped).tlm.directQueue = []
    ∧ (placeDirect 11 (.step 2 30) 7 ready).tlm.directQueue = { address := 11, command := .step 2 30, tag := 7 } :: []
    ∧ (placeDirect 11 (.step 2 30) 7 stepped).tlm.directQueue = { address := 11, command := .step 2 30, tag := 7 } :: []
    ∧ ready.tlm.searchRequest = none ∧ ready.tlm.directQueue = []
    ∧ (waiting .direct .release ready).tlm.transaction ≠ none ∧ ready.mgmt.settings.watchdog ≤ 255 := by decide

/-- The latest moment of R103's deadline clause: a unit that takes the STEP 510 ms after the send has 1490 ms to spare. -/
theorem witness_TransactionStart_deadline :
    lapseMoment 0 30 ≤ 510 + 30000 + 1490 ∧ (((unit11.after (.step 2 30)).waits 30000).expires).step = none
      ∧ ((unit11.after (.step 2 30)).waits 29999).expires.step ≠ none := by decide

/-- The frame of section 6's example stands on the line when the direct STEP starts. -/
theorem test_line_after_start :
    (nextOf (execTlmTransactionStart (placeDirect 11 (.step 2 30) 7 ready))).map (fun t => (t.tlm.line, t.tlm.sent))
      = some ([0xD1, 0x0B, 0x01, 0x02, 0x1E, 0x03], 1) := by decide

/-- The ACK_STEP of leg 10's unit. -/
def ackFrame : List Byte := [0xD2, 0x0A, 0x81, 0x01, 0x02, 0x1E, 0x82]

/-- The ACK_RELEASE of leg 10's unit. -/
def releasedFrame : List Byte := [0xD2, 0x0A, 0x82, 0x00, 0x00, 0x00, 0xA2]

/-- The ACK_STEP of leg 12's unit. -/
def otherFrame : List Byte := [0xD2, 0x0C, 0x81, 0x01, 0x02, 0x1E, 0x80]

/-- A direct command to leg 10 on the line, its request executing. -/
def directWaiting (c : TlmCommand) : State :=
  holding ⟨headOf 0x31 1, .directRelease (some 10)⟩ (waiting .direct c ready)

/-- A search in a state, its command to leg 10 on the line, its end cause fixed in ENDING. -/
def searchWaiting (st : RunState) (c : TlmCommand) : State :=
  waiting .search c (searching { searchIn st with cause := if st = .ending then some .aborted else none })

/-- The unit of leg 11 with 19.5 s of its hold to run. -/
def unit11Stepped : LegUnit := (unit11.after (.step 2 30)).waits 10500

/-- Section 6.2's worked frames: the unit takes the STEP and answers ACK_STEP; a bad check leaves it silent (R101, R102). -/
theorem test_unit_steps :
    unit11.hears [0xD1, 0x0B, 0x01, 0x02, 0x1E, 0x03]
        = ({ address := 11, step := some { level := 2, remaining := 30000 } }, some [0xD2, 0x0B, 0x81, 0x01, 0x02, 0x1E, 0x81])
      ∧ unit11.hears [0xD1, 0x0B, 0x01, 0x02, 0x1E, 0x04] = (unit11, none) := by decide

/-- QUERY reports the remaining hold rounded up; RELEASE is answered by the state it finds, at the expiry's moment too (R103). -/
theorem test_unit_answers :
    (unit11Stepped.hears (commandFrame 11 .query)).2 = some [0xD2, 0x0B, 0x84, 0x01, 0x02, 0x14, 0x88]
      ∧ ((unit11Stepped.waits 19500).hears (commandFrame 11 .release)).2 = some [0xD2, 0x0B, 0x82, 0x00, 0x00, 0x00, 0xA1]
      ∧ ((unit11Stepped.waits 19500).expires.hears (commandFrame 11 .release)).2
          = some [0xD2, 0x0B, 0x83, 0x00, 0x00, 0x00, 0xA0] := by decide

theorem witness_ReplyFrames_unit :
    unit11.takes (commandFrame 11 (.step 3 60)) = some (.step 3 60) ∧ unit11.takes (commandFrame 11 (.step 1 1)) = some (.step 1 1)
      ∧ unit11.takes (commandFrame 11 .release) = some .release ∧ unit11.takes (commandFrame 11 .query) = some .query
      ∧ unit11.takes (commandFrame 11 (.step 4 1)) = none ∧ unit11.takes (commandFrame 11 (.step 1 61)) = none
      ∧ unit11.takes (commandFrame 12 .query) = none
      ∧ ({ address := 1, step := none } : LegUnit).takes (commandFrame 1 .query) = some .query
      ∧ ({ address := 254, step := none } : LegUnit).takes (commandFrame 254 .query) = some .query := by decide

theorem witness_ReplyFrames_direct :
    let tx : Transaction := { address := 10, command := .step 2 30, requester := .direct, sentAt := 0, watchdog := 200 }
    let s := directWaiting (.step 2 30)
    let six := { s with tlm := { s.tlm with assembling := ackFrame.take 6 } }
    somethingDue s = false ∧ s.tlm.transaction = some tx ∧ tx.requester = .direct ∧ s.tlm.assembling = []
      ∧ ackFrame.length = 7 ∧ byteAt ackFrame 0 = 0xD2
      ∧ validReply tx ackFrame = some { code := .ackStep, unitState := 1, level := 2, hold := 30 }
      ∧ s.mgmt.requests = ⟨headOf 0x31 1, .directRelease (some 10)⟩ :: [] ∧ tableGet s.tlm.entries 10 = some newEntry
      ∧ validReply tx [0xD2, 0x0A, 0x81, 0x01, 0x02, 0x1E, 0x83] = none
      ∧ somethingDue six = false ∧ six.tlm.assembling.length = 6 ∧ byteAt six.tlm.assembling 0 = 0xD2
      ∧ six.tlm.assembling = ackFrame.take six.tlm.assembling.length := by decide

theorem witness_ReplyFrames_search :
    (∀ st ∈ [RunState.stepping, .ending],
      let s := searchWaiting st (.step 1 20)
      somethingDue s = false ∧ s.search.record.map (·.state) = some st
        ∧ s.search.record.bind (fun x => x.legs[x.current]?) = some { element := 2, address := 10, cls := none, drop := none }
        ∧ (s.tlm.transaction.bind (fun tx => validReply tx ackFrame)).isSome = true
        ∧ s.tlm.assembling = ackFrame.take s.tlm.assembling.length)
      ∧ (∀ st ∈ [RunState.releasing, .ending],
        let s := searchWaiting st .release
        somethingDue s = false ∧ s.search.record.map (·.state) = some st
          ∧ s.search.record.bind (fun x => x.legs[x.current]?) = some { element := 2, address := 10, cls := none, drop := none }
          ∧ (s.tlm.transaction.bind (fun tx => validReply tx releasedFrame)).isSome = true
          ∧ s.tlm.assembling = releasedFrame.take s.tlm.assembling.length)
      ∧ (searchWaiting .ending .release).search.record.bind (·.cause) = some .aborted
      ∧ (waiting .search .release ready).search.record = none ∧ somethingDue (waiting .search .release ready) = false
      ∧ (searchWaiting .baseline .release).search.record.map (·.state) = some .baseline
      ∧ somethingDue (searchWaiting .baseline .release) = false
      ∧ (validReply { address := 12, command := .step 1 20, requester := .search, sentAt := 0, watchdog := 200 } otherFrame).isSome
          = true := by decide

/-- The RELEASE of a search that has ended meanwhile: its timeout changes the leg's entry and reaches no one (R130). -/
theorem test_late_timeout :
    (nextOf (execTlmWatchdogExpiry (waiting .search .release ready))).map (fun t =>
        ((tableGet t.tlm.entries 10).map (fun e => (e.state, e.timeouts)), t.search.record, t.tlm.timeout))
      = some (some (.pass, 1), none, 1) := by decide

theorem witness_WatchdogExpiry : ready.tlm.transaction = none
    ∧ (∀ st ∈ [RunState.stepping, .ending, .releasing], ∀ c ∈ [TlmCommand.step 1 20, .release],
      somethingDue (searchWaiting st c) = false
        ∧ (searchWaiting st c).tlm.transaction
            = some { address := 10, command := c, requester := .search, sentAt := 0, watchdog := 200 }
        ∧ (searchWaiting st c).search.record.map (·.state) = some st)
    ∧ somethingDue (directWaiting .release) = false
    ∧ (directWaiting .release).tlm.transaction
        = some { address := 10, command := .release, requester := .direct, sentAt := 0, watchdog := 200 }
    ∧ (directWaiting .release).mgmt.requests = ⟨headOf 0x31 1, .directRelease (some 10)⟩ :: []
    ∧ tableGet (directWaiting .release).tlm.entries 10 = some newEntry := by decide

theorem witness_Deadlines : somethingDue stepped = false
    ∧ tableGet stepped.tlm.entries 11 = some { newEntry with state := .stepped, owner := some .direct, deadline := some 32000 }
    ∧ (∀ p ∈ stepped.tlm.entries, p.2.retained = false) ∧ lapseForestalled stepped 11 = false ∧ searchHolds stepped 11 = false := by
  decide

theorem witness_Deadlines_retained : ∃ (s : State) (e : TrackEntry), somethingDue s = false
    ∧ tableGet s.tlm.entries 11 = some e ∧ e.deadline = some 32000
    ∧ e.state ≠ .pass ∧ e.retained = true ∧ (∀ p ∈ s.tlm.entries, p.2.retained = true ↔ p.1 = 11)
    ∧ s.tlm.transaction = none ∧ searchHolds s 11 = false ∧ lapseForestalled s 11 = false :=
  ⟨{ stepped with tlm := rebuild [] stepped.tlm },
    { newEntry with state := .stepped, owner := some .direct, deadline := some 32000, retained := true }, by decide⟩

/-- A RELEASE to the retained leg 11 on the line. -/
def retainedReleasing : State :=
  holding ⟨headOf 0x31 1, .directRelease (some 11)⟩ { stepped with tlm := { rebuild [] stepped.tlm with
    transaction := some { address := 11, command := .release, requester := .direct, sentAt := 0, watchdog := 200 } } }

theorem witness_Deadlines_retained_releasing : ∃ e : TrackEntry, somethingDue retainedReleasing = false
    ∧ tableGet retainedReleasing.tlm.entries 11 = some e ∧ e.deadline = some 32000 ∧ e.state ≠ .pass ∧ e.retained = true
    ∧ (∀ p ∈ retainedReleasing.tlm.entries, p.2.retained = true ↔ p.1 = 11)
    ∧ retainedReleasing.tlm.transaction.map (·.address) = some 11 ∧ lapseForestalled retainedReleasing 11 = false :=
  ⟨{ newEntry with state := .stepped, owner := some .direct, deadline := some 32000, retained := true }, by decide⟩

theorem witness_Deadlines_search : ∀ st, (searching (searchIn st)).search.record = some (searchIn st)
    ∧ (searchIn st).legs[(searchIn st).current]? = some { element := 2, address := 10, cls := none, drop := none } :=
  fun _ => ⟨rfl, rfl⟩

theorem witness_Deadlines_measure : ∀ st ∈ [RunState.settle, .measure],
    let x := { searchIn st with measureDeadline := some 20000, peakSum := -900, collected := 1 }
    somethingDue (searching x) = false ∧ (searching x).search.record = some x ∧ x.measureDeadline = some 20000
      ∧ x.legs[x.current]?.isSome = true := by decide

/-- The peaks of a measure in progress are discarded at the measure deadline (R129). -/
theorem test_measure_discarded :
    let x := { searchIn .measure with measureDeadline := some 20000, peakSum := -900, collected := 1 }
    (nextOf (execMeasureDeadline (searching x))).bind (fun t => t.search.record.map (fun y => (y.state, y.peakSum, y.collected)))
      = some (.releasing, 0, 0) := by decide

theorem witness_SearchNotices :
    (searching (searchIn .baseline)).bands.bands[(searchIn .baseline).band]? = some hotBand ∧ hotBand.entry.enabled = true
      ∧ (searchIn .baseline).collected + 1 = (searchIn .baseline).k
      ∧ ({ searchIn .settle with settle := 1 } : SearchRecord).settle = 1
      ∧ ({ searchIn .measure with baseline := some (-183) } : SearchRecord).baseline = some (-183) := by decide

theorem witness_LevelDecisionAndEnd : (∀ l ∈ [measured 4 11 .full 53, measured 7 12 .full 53], l.cls = some .full → l.drop ≠ none)
    ∧ (searchIn .baseline).legs[(searchIn .baseline).current]? = some { element := 2, address := 10, cls := none, drop := none }
    ∧ (tableGet ready.tlm.entries 10).map (·.reachable) = some true
    ∧ [measured 4 11 .full 53].length = 1 ∧ [measured 4 11 .full 53][1]? = none ∧ decideLevel [measured 4 11 .full 53] = .descend 4
    ∧ decideLevel [measured 4 11 .partialDrop 24] = .stop .split ∧ decideLevel [measured 4 11 .noDrop 3] = .stop .localized := by decide

/-- The level's list done, the search descends to the leg that took the whole drop, and its child legs are taken up. -/
theorem test_descent :
    (match takeUp plant ready.tlm.entries 80 { searchIn .releasing with legs := [measured 2 10 .full 60], current := 1 } with
     | .running x => some (x.state, x.head, x.path, x.legs.map (·.element), x.current)
     | .ended _ _ _ => none) = some (.baseline, 2, [2], [4, 7], 0) := by decide

theorem witness_EventsReachSlots :
    (slotOf eventSlot).map (fun e => (eventMatches e (.declare 31 406 (-125)), eventMatches e (.declare 30 406 (-125)),
      eventMatches e .newSuspect)) = some (true, false, false) := by decide

/-- A trigger of any cause appends a slot once and is counted while the slot waits (R182). -/
theorem test_triggers_counted :
    enqueueSlot 2 .periodic [queued1] = [queued1, { slot := 2, cause := .periodic, count := 1 }]
      ∧ enqueueSlot 0 .periodic [queued1] = [{ queued1 with count := 2 }] := by decide

/-! ### The laws -/

/-- The laws' premises hold together in the state after reset's load. -/
theorem witness_laws_queues : HeadLaw served ∧ QueueLaw served ∧ IntakeLaw served ∧ ReadyLaw served ∧ MapLaw served := by
  refine ⟨?_, ?_, ?_, ?_, ?_⟩
  · unfold HeadLaw; decide
  · unfold QueueLaw; decide
  · unfold IntakeLaw; dsimp only; decide
  · unfold ReadyLaw; decide
  · unfold MapLaw; decide

theorem witness_laws_link : LaneLaw served ∧ LinkLaw served := by
  refine ⟨⟨⟨by decide, rfl, by decide⟩, ⟨by decide, rfl, by decide⟩⟩, ?_⟩
  unfold LinkLaw laneTimes
  exact ⟨by decide, by decide, ⟨fun d h => Nat.zero_le d, fun r h => by cases h⟩,
    ⟨fun d h => Nat.zero_le d, fun r h => by cases h⟩, by decide, by decide, by decide, by decide⟩

theorem witness_laws_tables : SettingsLaw ready ∧ TableLaw ready ∧ ElementLaw ready := by
  unfold SettingsLaw TableLaw ElementLaw
  decide +kernel

theorem witness_laws_plant : AttachmentLaw ready ∧ MapLaw ready ∧ ReadyLaw ready := by
  unfold AttachmentLaw MapLaw ReadyLaw
  decide +kernel

theorem witness_laws_engines : TrackingLaw stepped ∧ BandLaw ready ∧ TallyLaw ready ∧ LaneLaw (betweenFrames 3) := by
  refine ⟨?_, ?_, ?_, ?_⟩
  · unfold TrackingLaw entryLaw; decide
  · unfold BandLaw bandLaw; decide
  · unfold TallyLaw recordLaw; decide
  · exact ⟨⟨by decide, rfl⟩, ⟨by decide, rfl⟩⟩

theorem witness_laws_results : ResultLaw (startSearch search3 ready) ∧ ResultLaw served := by
  refine ⟨⟨⟨?_, trivial⟩, ?_⟩, trivial, ?_⟩ <;> decide

end Sys2Proof.Tests
end

section
/-! The reads of the map and of the attachments (R15, R22), and ATTACH_DELETE (R20): what each request's own rule answers,
case by case, and the statements O6 and O18 assembled from it. -/

namespace Sys2Proof.Machine

/-! ## A request whose body holds its fields -/

/-- A request that executes with its body's fields runs its kind's own rule on them (R170). -/
theorem runRequest_withBody_of_executes {α : Type} {r : Request} {s : State} (own : α → State → State) (v : α)
    (he : Executes r s) : runRequest r (withBody r (some v) own) s = .next (own v s) :=
  runRequest_of_executes _ he

theorem exec_mapRead_of_executes {h : ReqHead} {q : StartCount} {s : State} (he : Executes ⟨h, .mapRead (some q)⟩ s) :
    exec (.mapRead h (some q)) s = .next (mapReadOwn ⟨h, .mapRead (some q)⟩ q s) :=
  runRequest_withBody_of_executes _ q he

theorem exec_attachReadByStation_of_executes {h : ReqHead} {station : Word32} {s : State}
    (he : Executes ⟨h, .attachReadByStation (some station)⟩ s) :
    exec (.attachReadByStation h (some station)) s
      = .next (attachReadByStationOwn ⟨h, .attachReadByStation (some station)⟩ station s) :=
  runRequest_withBody_of_executes _ station he

theorem exec_attachReadByRange_of_executes {h : ReqHead} {q : StartCount} {s : State}
    (he : Executes ⟨h, .attachReadByRange (some q)⟩ s) :
    exec (.attachReadByRange h (some q)) s = .next (attachReadByRangeOwn ⟨h, .attachReadByRange (some q)⟩ q s) :=
  runRequest_withBody_of_executes _ q he

theorem exec_attachDelete_of_executes {h : ReqHead} {station : Word32} {s : State}
    (he : Executes ⟨h, .attachDelete (some station)⟩ s) :
    exec (.attachDelete h (some station)) s = .next (attachDeleteOwn ⟨h, .attachDelete (some station)⟩ station s) :=
  runRequest_withBody_of_executes _ station he

/-! ## Pages of a table -/

/-- The range check of a read by start number and count. -/
theorem startCount_within_iff (q : StartCount) (top most : Nat) :
    (within 0 top q.start && within 1 most q.count) = true ↔ q.start ≤ top ∧ 1 ≤ q.count ∧ q.count ≤ most := by
  simp [within]

/-- The continuation number of a page in the words of the library. -/
theorem continuation_eq {α : Type} (records : Table α) (count top : Nat) :
    continuation records count top =
      if records.length = count then (records.getLast?.map (fun p => p.1 + 1)).filter (fun n => decide (n ≤ top)) else none := by
  unfold continuation
  split
  · cases records.getLast? with
    | none => rfl
    | some p => simp [Option.filter_some]
  · rfl

/-! ## The own rules of the reads -/

/-- MAP_READ with start and count in range answers a page of the element table (R15). -/
theorem mapReadOwn_of_inRange {r : Request} {q : StartCount} {s : State} (hq : q.start ≤ 511 ∧ 1 ≤ q.count ∧ q.count ≤ 32) :
    mapReadOwn r q s =
      replied r .ok (.mapRecords s.map.state s.map.error s.map.elements.length (page s.map.elements q.start q.count)
        (continuation (page s.map.elements q.start q.count) q.count 511)) s :=
  if_pos ((startCount_within_iff q 511 32).mpr hq)

/-- MAP_READ with a start or count out of range is refused (R15). -/
theorem mapReadOwn_of_outOfRange {r : Request} {q : StartCount} {s : State}
    (hq : ¬ (q.start ≤ 511 ∧ 1 ≤ q.count ∧ q.count ≤ 32)) : mapReadOwn r q s = replied r .badValue .empty s :=
  if_neg (mt (startCount_within_iff q 511 32).mp hq)

/-- ATTACH_READ of a station that an entry holds answers that entry (R22). -/
theorem attachReadByStationOwn_of_found {r : Request} {station : Word32} {s : State} {i : Nat} {a : Attachment}
    (hf : indexOfStation s.map.attachments station = some (i, a)) :
    attachReadByStationOwn r station s = replied r .ok (.attachEntry i a.element a.port a.drop a.validity) s := by
  unfold attachReadByStationOwn
  rw [hf]
  rfl

/-- ATTACH_READ of a station that no entry holds is refused (R22). -/
theorem attachReadByStationOwn_of_absent {r : Request} {station : Word32} {s : State}
    (hf : indexOfStation s.map.attachments station = none) :
    attachReadByStationOwn r station s = replied r .notFound .empty s := by
  unfold attachReadByStationOwn
  rw [hf]
  rfl

/-- ATTACH_READ with start and count in range answers a page of the attachment table (R22). -/
theorem attachReadByRangeOwn_of_inRange {r : Request} {q : StartCount} {s : State}
    (hq : q.start ≤ 1023 ∧ 1 ≤ q.count ∧ q.count ≤ 32) :
    attachReadByRangeOwn r q s =
      replied r .ok (.attachEntries s.map.attachments.length (staleCount s) (page s.map.attachments q.start q.count)
        (continuation (page s.map.attachments q.start q.count) q.count 1023)) s :=
  if_pos ((startCount_within_iff q 1023 32).mpr hq)

/-- ATTACH_READ with a start or count out of range is refused (R22). -/
theorem attachReadByRangeOwn_of_outOfRange {r : Request} {q : StartCount} {s : State}
    (hq : ¬ (q.start ≤ 1023 ∧ 1 ≤ q.count ∧ q.count ≤ 32)) : attachReadByRangeOwn r q s = replied r .badValue .empty s :=
  if_neg (mt (startCount_within_iff q 1023 32).mp hq)

/-! ## ATTACH_DELETE -/

/-- ATTACH_DELETE of a station that an entry holds frees the entry's index and takes it out of every voter list (R20, R58). -/
theorem attachDeleteOwn_of_found {r : Request} {station : Word32} {s : State} {i : Nat} {a : Attachment}
    (hf : indexOfStation s.map.attachments station = some (i, a)) :
    attachDeleteOwn r station s =
      replied r .ok (.attachIndex i) (withoutVoter i (setAttachments (tableDel s.map.attachments i) s)) := by
  unfold attachDeleteOwn
  rw [hf]
  dsimp only
  rw [removeVoter_eq, answer_eq_replied]

/-- ATTACH_DELETE of a station that no entry holds is refused (R20). -/
theorem attachDeleteOwn_of_absent {r : Request} {station : Word32} {s : State}
    (hf : indexOfStation s.map.attachments station = none) : attachDeleteOwn r station s = replied r .notFound .empty s := by
  unfold attachDeleteOwn
  rw [hf]
  rfl

/-! ## A shorter voter list lifts no record -/

/-- R50 gives WATCH exactly to a record with fewer voters than the promote threshold. -/
theorem stateFor_eq_watch_iff (promote : Nat) (voters : List Nat) :
    stateFor promote voters = .watch ↔ voters.length < promote := by
  unfold stateFor
  split
  · next hp => simpa using hp
  · next hp => simpa using hp

/-- A WATCH record stays below the promote threshold when voters leave its list (R50, R58). -/
theorem length_filter_voters_lt_promote {promote : Nat} {r : TallyRecord} (keep : Nat → Bool) (hlaw : recordLaw promote r)
    (hw : r.state = .watch) : (r.voters.filter keep).length < promote := by
  obtain ⟨_, _, _, _, hstate⟩ := hlaw
  calc (r.voters.filter keep).length ≤ r.voters.length := List.length_filter_le ..
    _ < promote := (stateFor_eq_watch_iff promote r.voters).mp (hstate.symm.trans hw)

/-- Where every record has the state of R50, the removal of a voter raises no event (R57, R58). -/
theorem withoutVoter_reports_of_tallyLaw (i : Nat) {s : State} (hlaw : TallyLaw s) :
    (withoutVoter i s).reports = s.reports := by
  obtain ⟨_, _, hrecords⟩ := hlaw
  have noneRises : s.tally.records.filter (fun p => decide (i ∈ p.2.voters) && p.2.state == .watch
      && decide (s.mgmt.settings.promote ≤ (p.2.voters.filter (fun v => v != i)).length)) = [] := by
    refine List.filter_eq_nil_iff.mpr fun p hp hrises => ?_
    simp only [Bool.and_eq_true, beq_iff_eq, decide_eq_true_eq] at hrises
    obtain ⟨⟨_, hwatch⟩, hpromote⟩ := hrises
    exact Nat.not_lt.mpr hpromote (length_filter_voters_lt_promote _ (hrecords p hp) hwatch)
  simp [withoutVoter, noneRises]

/-! ## The statements -/

/-- Settles O6: each read by its range check or its search for the station. -/
theorem mapAndAttachmentReads : Obligations.MapAndAttachmentReads := by
  refine ⟨fun h q s he => ?_, fun h station s he => ?_, fun h q s he => ?_⟩
  · rw [exec_mapRead_of_executes he]
    by_cases hq : q.start ≤ 511 ∧ 1 ≤ q.count ∧ q.count ≤ 32
    · rw [mapReadOwn_of_inRange hq, if_pos hq, continuation_eq]
      rfl
    · rw [mapReadOwn_of_outOfRange hq, if_neg hq]
  · rw [exec_attachReadByStation_of_executes he]
    cases hf : s.map.attachments.find? (fun p => p.2.station == station) with
    | none => rw [attachReadByStationOwn_of_absent hf]
    | some found => rw [attachReadByStationOwn_of_found hf]
  · rw [exec_attachReadByRange_of_executes he]
    by_cases hq : q.start ≤ 1023 ∧ 1 ≤ q.count ∧ q.count ≤ 32
    · rw [attachReadByRangeOwn_of_inRange hq, if_pos hq, continuation_eq]
      rfl
    · rw [attachReadByRangeOwn_of_outOfRange hq, if_neg hq]

/-- Settles O18: by whether an entry holds the station id; a removed voter lifts no record of a lawful tally. -/
theorem attachDelete : Obligations.AttachDelete := by
  refine ⟨fun h station s he => ?_, fun i s hlaw => withoutVoter_reports_of_tallyLaw i hlaw⟩
  rw [exec_attachDelete_of_executes he]
  cases hf : s.map.attachments.find? (fun p => p.2.station == station) with
  | none => rw [attachDeleteOwn_of_absent hf]
  | some found =>
    rw [attachDeleteOwn_of_found hf]
    rfl

end Sys2Proof.Machine
end

section
/-! The parts of the state that the laws of Safety.lean speak of, and for every command which of them it may change. The
table `commandTouches` is what the step lemmas below go through: a law is kept by every command that touches none of its
parts. -/

namespace Sys2Proof.Machine

/-! ## Parts of the state -/

/-- The parts of the state that the laws speak of. -/
inductive Part where
  | link
  | corrections
  | bands
  | elements
  | attachments
  | mapState
  | records
  | entries
  | tlmWork
  | search
  | queues
  | settings
  | address
  | intake
  | analysis
  | channels
  | slots
  | reportQueue
  | alarms
  | image
  deriving DecidableEq

/-- Every part. -/
def Part.all : List Part :=
  [.link, .corrections, .bands, .elements, .attachments, .mapState, .records, .entries, .tlmWork, .search, .queues,
    .settings, .address, .intake, .analysis, .channels, .slots, .reportQueue, .alarms, .image]

theorem Part.mem_all (p : Part) : p ∈ Part.all := by cases p <;> decide

/-- Two states agree in a part. -/
def Agree (s t : State) : Part → Prop
  | .link => t.link = s.link
  | .corrections => t.sweep.corrections = s.sweep.corrections
  | .bands => t.bands.bands = s.bands.bands
  | .elements => t.map.elements = s.map.elements
  | .attachments => t.map.attachments = s.map.attachments
  | .mapState => t.map.state = s.map.state ∧ t.map.error = s.map.error ∧ t.map.closing = s.map.closing
  | .records => t.tally.records = s.tally.records
  | .entries => t.tlm.entries = s.tlm.entries
  | .tlmWork => t.tlm.transaction = s.tlm.transaction ∧ t.tlm.directQueue = s.tlm.directQueue
  | .search => t.search = s.search
  | .queues =>
    t.mgmt.requests = s.mgmt.requests ∧ t.mgmt.executing = s.mgmt.executing ∧ t.mgmt.responses = s.mgmt.responses
  | .settings => t.mgmt.settings = s.mgmt.settings
  | .address => t.mgmt.nodeAddress = s.mgmt.nodeAddress
  | .intake => t.echo.queue = s.echo.queue ∧ t.echo.counters = s.echo.counters
  | .analysis => t.echo.analysis = s.echo.analysis
  | .channels => t.echo.channels = s.echo.channels
  | .slots => t.reports.slots = s.reports.slots
  | .reportQueue => t.reports.queue = s.reports.queue
  | .alarms => t.reports.alarms = s.reports.alarms
  | .image => t.image.load = s.image.load ∧ t.image.saving = s.image.saving

/-- At most the parts named have changed from one state to another. -/
structure Confined (parts : List Part) (s t : State) : Prop where
  touchedOrAgree : ∀ p ∈ Part.all, p ∈ parts ∨ Agree s t p

theorem confined_iff {parts : List Part} {s t : State} : Confined parts s t ↔ ∀ p ∈ Part.all, p ∈ parts ∨ Agree s t p :=
  ⟨fun h => h.touchedOrAgree, fun h => ⟨h⟩⟩

theorem Confined.agree {parts : List Part} {s t : State} (h : Confined parts s t) (p : Part) (hp : p ∉ parts) : Agree s t p :=
  (h.touchedOrAgree p (Part.mem_all p)).resolve_left hp

theorem Confined.mono {parts more : List Part} {s t : State} (h : Confined parts s t) (hsub : parts ⊆ more) : Confined more s t :=
  ⟨fun p hp => (h.touchedOrAgree p hp).imp (fun hmem => hsub hmem) id⟩

theorem Agree.refl (s : State) (p : Part) : Agree s s p := by cases p <;> simp [Agree]

theorem Agree.trans {s t u : State} {p : Part} (h : Agree s t p) (k : Agree t u p) : Agree s u p := by
  cases p <;> simp only [Agree] at h k ⊢ <;> simp [h, k]

theorem Confined.refl (parts : List Part) (s : State) : Confined parts s s := ⟨fun p _ => .inr (Agree.refl s p)⟩

theorem Confined.trans {parts : List Part} {s t u : State} (h : Confined parts s t) (k : Confined parts t u) : Confined parts s u :=
  ⟨fun p hp => (h.touchedOrAgree p hp).elim .inl fun hst => (k.touchedOrAgree p hp).imp id fun htu => hst.trans htu⟩

/-- A fold of updates changes no more parts than each of them. -/
theorem confined_foldl {α : Type} {parts : List Part} (f : State → α → State) (hf : ∀ s x, Confined parts s (f s x)) (l : List α)
    (s : State) : Confined parts s (l.foldl f s) := by
  induction l generalizing s with
  | nil => exact .refl parts s
  | cons x l ih => exact (hf s x).trans (ih (f s x))

/-! ## What the shared operations change -/

theorem confined_answer (r : Request) (code : Completion) (body : Body) (s : State) : Confined [.queues] s (answer r code body s) := by
  simp [confined_iff, Part.all, Agree, answer]

theorem confined_refuse (r : Request) (code : Completion) (s : State) : Confined [.queues] s (refuse r code s) :=
  confined_answer r code .empty s

theorem confined_answerHead (code : Completion) (body : Body) (s : State) : Confined [.queues] s (answerHead code body s) := by
  unfold answerHead
  split
  · exact .refl _ s
  · exact confined_answer _ code body s

theorem confined_hold (s : State) : Confined [.queues] s (hold s) := by simp [confined_iff, Part.all, Agree, hold]

theorem confined_reach (due : Nat) (s : State) : Confined [] s (reach due s) := by simp [confined_iff, Part.all, Agree]

theorem confined_raiseEvents (evs : List Event) (s : State) : Confined [.reportQueue] s (raiseEvents evs s) := by
  simp [confined_iff, Part.all, Agree]

/-- The parts that a move of the search can change. -/
def searchParts : List Part := [.search, .records, .reportQueue]

theorem SearchTouches.confined {s t : State} (h : SearchTouches s t) : Confined searchParts s t := by
  obtain ⟨_, hlink, hsweep, hbands, hmap, hecho, hmgmt, himage, _, htlm, _, hslots, halarms⟩ := h
  have hentries : t.tlm.entries = s.tlm.entries := by rw [htlm]
  have hwork : t.tlm.transaction = s.tlm.transaction ∧ t.tlm.directQueue = s.tlm.directQueue := by rw [htlm]; exact ⟨rfl, rfl⟩
  simp [confined_iff, Part.all, Agree, searchParts, hlink, hsweep, hbands, hmap, hecho, hmgmt, himage, hentries, hwork, hslots,
    halarms]

/-- A request that ends in an answer changes its queues besides what its effect changes. -/
theorem Confined.then_answer {parts : List Part} {s u : State} (h : Confined parts s u) (r : Request) (code : Completion) (body : Body) :
    Confined (.queues :: parts) s (answer r code body u) :=
  (h.mono (List.subset_cons_self ..)).trans ((confined_answer r code body u).mono (by simp))

theorem Confined.then_answerHead {parts : List Part} {s u : State} (h : Confined parts s u) (code : Completion) (body : Body) :
    Confined (.queues :: parts) s (answerHead code body u) :=
  (h.mono (List.subset_cons_self ..)).trans ((confined_answerHead code body u).mono (by simp))

theorem Confined.then_hold {parts : List Part} {s u : State} (h : Confined parts s u) : Confined (.queues :: parts) s (hold u) :=
  (h.mono (List.subset_cons_self ..)).trans ((confined_hold u).mono (by simp))

theorem Confined.then_raiseEvents {parts : List Part} {s u : State} (h : Confined parts s u) (evs : List Event) :
    Confined (.reportQueue :: parts) s (raiseEvents evs u) :=
  (h.mono (List.subset_cons_self ..)).trans ((confined_raiseEvents evs u).mono (by simp))

/-! ## What the events change -/

theorem confined_tick (s : State) : Confined [] s (tick s) := by simp [confined_iff, Part.all, Agree, tick]

theorem confined_tellLockLost (which : Lane) (s : State) : Confined searchParts s (tellLockLost which s) := by
  have sweepOnly : Confined searchParts s { s with sweep := discardAssembly .lockLost s.sweep } := by
    unfold discardAssembly
    split <;> simp [confined_iff, Part.all, Agree]
  cases which with
  | nodeSide => exact sweepOnly.trans (fixCause_touches .linkLost _).confined
  | hubSide => exact .refl _ s

/-- A change of the link alone. -/
theorem confined_link (parts : List Part) (l : Link) (s : State) : Confined (.link :: parts) s { s with link := l } := by
  simp [confined_iff, Part.all, Agree]

theorem confined_loseLock (which : Lane) (cursor : Nat) (signal : Bool) (s : State) :
    Confined (.link :: searchParts) s (loseLock which cursor signal s) :=
  (confined_link searchParts _ s).trans ((confined_tellLockLost which _).mono (List.subset_cons_self ..))

theorem confined_loseSignal (lane : Lane) (s : State) : Confined (.link :: searchParts) s (loseSignal lane s) := by
  unfold loseSignal
  dsimp only
  split
  · exact confined_loseLock lane _ _ s
  · simp [confined_iff, Part.all, Agree]

theorem confined_regainSignal (lane : Lane) (s : State) : Confined [.link] s (regainSignal lane s) := by
  unfold regainSignal
  dsimp only
  split <;> simp [confined_iff, Part.all, Agree]

theorem confined_testHeader (lane : Lane) (h : List Byte) (s : State) : Confined [.link] s (testHeader lane h s) := by
  unfold testHeader
  dsimp only
  split
  · exact .refl _ s
  · split <;> simp [confined_iff, Part.all, Agree]

theorem confined_beginFrame (lane : Lane) (h : List Byte) (s : State) : Confined [.link] s (beginFrame lane h s) := by
  unfold beginFrame
  dsimp only
  split
  · split <;> simp [confined_iff, Part.all, Agree]
  · exact .refl _ s

theorem confined_missHeader (lane : Lane) (h : List Byte) (s : State) : Confined (.link :: searchParts) s (missHeader lane h s) := by
  unfold missHeader
  dsimp only
  split
  · split
    · split
      · exact (confined_link _ _ s).trans (confined_loseLock lane _ _ _)
      · exact confined_link _ _ s
    · exact .refl _ s
  · exact .refl _ s

theorem confined_arrive (which : Lane) (f : Frame) (taken : Bool) (s : State) : Confined [.link] s (arrive which f taken s) := by
  simp [confined_iff, Part.all, Agree, arrive]

end Sys2Proof.Machine
end

section
/-! What each command changes: the rules of the events and of the requests, one lemma each, and the table of all commands. -/

namespace Sys2Proof.Machine

/-! ## The events of the link -/

theorem confined_receiveDescriptor (f : Sys2Proof.Frame) (s : State) : Confined [.link, .intake] s (receiveDescriptor f s) := by
  unfold receiveDescriptor offerDescriptor
  dsimp only
  split
  · split
    · split
      · simp [confined_iff, Part.all, Agree, arrive]
      · split <;> simp [confined_iff, Part.all, Agree, arrive]
    · simp [confined_iff, Part.all, Agree, arrive]
  · exact .refl _ s

theorem confined_handOff (sweep : Nat) (levels : List Level) (s : State) :
    Confined (.bands :: searchParts) s (handOff sweep levels s) :=
  have bandsOnly (w : BandWatch) : Confined (.bands :: searchParts) s { s with bands := w } := by
    simp [confined_iff, Part.all, Agree]
  (bandsOnly _).trans ((handOff_touches sweep levels s).confined.mono (List.subset_cons_self ..))

theorem discardAssembly_corrections (why : DiscardReason) (w : Sweep) : (discardAssembly why w).corrections = w.corrections := by
  unfold discardAssembly
  split <;> rfl

/-- A segment changes sweep intake beside its correction table, and the one that completes a sweep hands it off. -/
theorem takeSegment_cases (f : Sys2Proof.Frame) (s : State) : ∃ w : Sweep, w.corrections = s.sweep.corrections
    ∧ (takeSegment f s = { s with sweep := w } ∨ ∃ n levels, takeSegment f s = handOff n levels { s with sweep := w }) := by
  unfold takeSegment goodSegment malformedSegment badCrcSegment
  split
  · split
    · split
      · refine ⟨_, ?_, .inl rfl⟩; exact discardAssembly_corrections .restarted _
      · split
        · exact ⟨{ s.sweep with orphan := bump s.sweep.orphan }, rfl, .inl rfl⟩
        · split
          · refine ⟨_, ?_, .inl rfl⟩; exact discardAssembly_corrections .outOfOrder _
          · split
            · refine ⟨_, ?_, .inl rfl⟩; exact discardAssembly_corrections .wrongSweep _
            · split
              · refine ⟨_, ?_, .inr ⟨_, _, rfl⟩⟩; rfl
              · refine ⟨_, ?_, .inl rfl⟩; rfl
    · refine ⟨_, ?_, .inl rfl⟩; exact discardAssembly_corrections .malformed _
  · refine ⟨_, ?_, .inl rfl⟩; exact discardAssembly_corrections .badCrc _

theorem confined_takeSegment (f : Sys2Proof.Frame) (s : State) : Confined (.bands :: searchParts) s (takeSegment f s) := by
  obtain ⟨w, hw, htaken | ⟨n, levels, htaken⟩⟩ := takeSegment_cases f s
  · rw [htaken]
    simp [confined_iff, Part.all, Agree, hw]
  · rw [htaken]
    refine Confined.trans ?_ (confined_handOff n levels _)
    simp [confined_iff, Part.all, Agree, hw]

theorem confined_receiveSegment (f : Sys2Proof.Frame) (s : State) :
    Confined (.link :: .bands :: searchParts) s (receiveSegment f s) := by
  unfold receiveSegment
  split
  · exact ((confined_arrive .nodeSide f false s).mono (by simp)).trans
      ((confined_takeSegment f _).mono (List.subset_cons_self ..))
  · exact .refl _ s

theorem confined_takeRequest (f : Sys2Proof.Frame) (body : ReqBody) (s : State) :
    Confined [.link, .queues] s (takeRequest f body s) := by
  unfold takeRequest handRequest
  dsimp only
  split
  · split <;> simp [confined_iff, Part.all, Agree, arrive]
  · exact .refl _ s

theorem confined_receiveOther (lane : Lane) (f : Sys2Proof.Frame) (s : State) : Confined [.link] s (receiveOther lane f s) := by
  unfold receiveOther
  split
  · exact confined_arrive lane f false s
  · exact .refl _ s

theorem confined_sendReport (q : QueuedSlot) (rest : List QueuedSlot) (x : ReportSlot) (l : Link) (s : State) :
    Confined [.link, .slots, .reportQueue] s (sendReport q rest x l s) := by
  unfold sendReport
  dsimp only
  split
  · split <;> simp [confined_iff, Part.all, Agree]
  · simp [confined_iff, Part.all, Agree]

theorem confined_hubChoice (s : State) : Confined [.link, .queues, .slots, .reportQueue] s (hubChoice s) := by
  have linkOnly (l : Link) : Confined [.link, .queues, .slots, .reportQueue] s { s with link := l } := confined_link _ l s
  unfold hubChoice
  dsimp only
  split
  · split
    · simp [confined_iff, Part.all, Agree]
    · split <;> exact linkOnly _
  · split
    · exact (confined_sendReport _ _ _ _ s).mono (by simp)
    · exact linkOnly _
    · exact linkOnly _
  · exact linkOnly _
  · exact linkOnly _

theorem confined_nodeChoice (s : State) : Confined [.link] s (nodeChoice s) := by
  unfold nodeChoice
  dsimp only
  split
  · split <;> exact confined_link [] _ s
  · exact confined_link [] _ s

theorem confined_crcExpiry (s : State) : Confined [.link] s (crcExpiry s) := by simp [confined_iff, Part.all, Agree, crcExpiry]

/-! ## The events of echo analysis, the tally, band watch and the slots -/

theorem confined_beginAnalysis (s : State) : Confined [.analysis] s (beginAnalysis s) := by
  unfold beginAnalysis
  split
  · simp [confined_iff, Part.all, Agree]
  · exact .refl _ s

theorem confined_castVotes (b : Ballot) (keys : List Key) (s : State) :
    Confined [.reportQueue, .records] s (castVotes b keys s) := by
  simp [confined_iff, Part.all, Agree, castVotes]

theorem confined_completeAnalysis (s : State) :
    Confined [.intake, .analysis, .reportQueue, .records] s (completeAnalysis s) := by
  have finish (o : AnalysisOutcome) (t : State) :
      Confined [.intake, .analysis, .reportQueue, .records] t (finishAnalysis o t) := by
    simp [confined_iff, Part.all, Agree, finishAnalysis]
  have latest (t : State) (x : Option LatestEcho) :
      Confined [.intake, .analysis, .reportQueue, .records] t { t with echo := { t.echo with latest := x } } := by
    simp [confined_iff, Part.all, Agree]
  unfold completeAnalysis
  split
  · split
    · exact finish _ s
    · split
      · exact finish _ s
      · exact (((confined_castVotes _ _ s).mono (by simp)).trans (latest _ _)).trans (finish _ _)
  · exact .refl _ s

theorem confined_agingExpiry (s : State) : Confined [.records] s (agingExpiry s) := by
  simp [confined_iff, Part.all, Agree, agingExpiry]

theorem confined_intervalTransfer (s : State) : Confined [.bands] s (intervalTransfer s) := by
  simp [confined_iff, Part.all, Agree, intervalTransfer]

theorem confined_bandIntervalExpiry (s : State) : Confined [.bands] s (bandIntervalExpiry s) := by
  unfold bandIntervalExpiry
  split
  · exact .refl _ s
  · simp [confined_iff, Part.all, Agree, intervalTransfer]

theorem triggerSlot_frame (slot : Nat) (cause : Cause) (r : Reports) :
    (triggerSlot slot cause r).slots = r.slots ∧ (triggerSlot slot cause r).alarms = r.alarms := by
  unfold triggerSlot
  split
  · split <;> exact ⟨rfl, rfl⟩
  · exact ⟨rfl, rfl⟩

theorem confined_periodExpiry (slot : Nat) (s : State) : Confined [.slots, .reportQueue] s (periodExpiry slot s) := by
  unfold periodExpiry
  split
  · exact .refl _ s
  · split
    · exact .refl _ s
    · split
      · exact .refl _ s
      · simp [confined_iff, Part.all, Agree, triggerSlot_frame]

/-! ## The events of the telemetry line and of the search -/

theorem confined_startTransaction (who : Requester) (address : Nat) (c : TlmCommand) (s : State) :
    Confined [.entries, .tlmWork] s (startTransaction who address c s) := by
  simp [confined_iff, Part.all, Agree, startTransaction]

/-- The parts that the end of a transaction can change. -/
def transactionParts : List Part := .entries :: .tlmWork :: .queues :: searchParts

theorem confined_endTransaction (tx : Transaction) (reply : Option Reply) (s : State) :
    Confined transactionParts s (endTransaction tx reply s) := by
  have tableOnly (t : Telemetry) : Confined transactionParts s { s with tlm := t } := by
    simp [confined_iff, Part.all, Agree, transactionParts]
  unfold endTransaction
  dsimp only
  split
  · exact (tableOnly _).trans ((searchOutcome_touches tx reply _).confined.mono (by simp [transactionParts, searchParts]))
  · exact (tableOnly _).trans ((confined_answerHead _ _ _).mono (by simp [transactionParts]))

theorem confined_examineReply (f : List Byte) (s : State) : Confined transactionParts s (examineReply f s) := by
  have tableOnly (t : Telemetry) : Confined transactionParts s { s with tlm := t } := by
    simp [confined_iff, Part.all, Agree, transactionParts]
  unfold examineReply
  dsimp only
  split
  · exact (tableOnly _).trans (confined_endTransaction _ _ _)
  · exact tableOnly _

theorem confined_hearFrame (f : List Byte) (s : State) : Confined transactionParts s (hearFrame f s) := by
  unfold hearFrame
  split
  · exact confined_examineReply f s
  · exact .refl _ s

theorem confined_hearByte (b : Byte) (s : State) : Confined transactionParts s (hearByte b s) := by
  unfold hearByte
  dsimp only
  split
  · exact .refl _ s
  · split
    · simp [confined_iff, Part.all, Agree]
    · exact confined_examineReply _ s

theorem confined_watchdogExpiry (s : State) : Confined transactionParts s (watchdogExpiry s) := by
  unfold watchdogExpiry
  split
  · exact .refl _ s
  · refine Confined.trans ?_ (confined_endTransaction _ _ _)
    simp [confined_iff, Part.all, Agree]

theorem confined_lapse (address : Nat) (s : State) : Confined (.entries :: searchParts) s (lapse address s) := by
  unfold lapse
  split
  · exact .refl _ s
  · split
    · exact .refl _ s
    · split
      · have passed (due : Nat) : Confined (.entries :: searchParts) s
            { reach due s with tlm := dropRetained { (reach due s).tlm with
                entries := tableModify (reach due s).tlm.entries address TrackEntry.toPass } } := by
          simp [confined_iff, Part.all, Agree, dropRetained]
        dsimp only
        split
        · exact (passed _).trans ((searchLapse_touches address _).confined.mono (List.subset_cons_self ..))
        · exact passed _
      · exact .refl _ s

theorem confined_measureExpiry (s : State) : Confined searchParts s (measureExpiry s) := by
  unfold measureExpiry
  split
  · exact .refl _ s
  · split
    · exact .refl _ s
    · split
      · exact ((confined_reach _ s).mono (by simp)).trans (postRelease_touches _ _ _).confined
      · exact .refl _ s

/-- An event changes what its effect changes. -/
theorem confined_inTurn {own : State → State} {s t : State} {parts : List Part} (h : inTurn own s = .next t)
    (hown : Confined parts s (own s)) : Confined parts s t := by
  obtain ⟨-, hran⟩ | ⟨-, hwaits⟩ := inTurn_cases own s
  · cases hran.symm.trans h; exact hown
  · cases hwaits.symm.trans h; exact .refl _ s

end Sys2Proof.Machine
end

section
/-! What each request changes, and what becomes of it: it is answered in the same event, or it holds the head. -/

namespace Sys2Proof.Machine

/-! ## The two ways a request's rule leaves the queues -/

/-- The request at the head has been answered: it has left the queue and one response has been placed (R168, R169). -/
structure Answered (s t : State) : Prop where
  requests : t.mgmt.requests = s.mgmt.requests.tail
  executing : t.mgmt.executing = false
  responses : ∃ x, t.mgmt.responses = s.mgmt.responses ++ [x]

/-- The request at the head executes on (R168). -/
structure Held (s t : State) : Prop where
  requests : t.mgmt.requests = s.mgmt.requests
  executing : t.mgmt.executing = true
  responses : t.mgmt.responses = s.mgmt.responses

/-- A rule that answers its request and changes at most some parts besides the queues. -/
structure Completes (parts : List Part) (s t : State) : Prop where
  confined : Confined (.queues :: parts) s t
  answered : Answered s t

/-- A rule that answers its request or lets it hold the head. -/
structure Begins (parts : List Part) (s t : State) : Prop where
  confined : Confined (.queues :: parts) s t
  outcome : Answered s t ∨ Held s t

theorem Completes.begins {parts : List Part} {s t : State} (h : Completes parts s t) : Begins parts s t :=
  ⟨h.confined, .inl h.answered⟩

/-- An answer on a state whose queues are as they were. -/
theorem Confined.completes {parts : List Part} {s u : State} (h : Confined parts s u) (hq : Part.queues ∉ parts) (r : Request)
    (code : Completion) (body : Body) : Completes parts s (answer r code body u) := by
  obtain ⟨hrequests, -, hresponses⟩ := h.agree .queues hq
  exact ⟨h.then_answer r code body, by rw [mgmt_answer, hrequests], rfl, _, by rw [mgmt_answer, hresponses]⟩

/-- An effect on the answered state that leaves the queues. -/
theorem Confined.completes_after {parts : List Part} {s t : State} {r : Request} {code : Completion} {body : Body}
    (h : Confined parts (answer r code body s) t) (hq : Part.queues ∉ parts) : Completes parts s t := by
  obtain ⟨hrequests, hexecuting, hresponses⟩ := h.agree .queues hq
  exact ⟨((confined_answer r code body s).mono (by simp)).trans (h.mono (List.subset_cons_self ..)),
    by rw [hrequests, mgmt_answer], by rw [hexecuting, mgmt_answer], _, by rw [hresponses, mgmt_answer]⟩

theorem Confined.begins {parts : List Part} {s u : State} (h : Confined parts s u) (hq : Part.queues ∉ parts) :
    Begins parts s (hold u) := by
  obtain ⟨hrequests, -, hresponses⟩ := h.agree .queues hq
  exact ⟨h.then_hold, .inr ⟨hrequests, rfl, hresponses⟩⟩

theorem completes_reply (parts : List Part) (r : Request) (code : Completion) (body : Body) (s : State) :
    Completes parts s (answer r code body s) :=
  ⟨(confined_answer r code body s).mono (by simp), rfl, rfl, _, rfl⟩

theorem completes_refuse (parts : List Part) (r : Request) (code : Completion) (s : State) :
    Completes parts s (refuse r code s) := completes_reply parts r code .empty s

theorem completes_noBody {parts : List Part} {r : Request} {own : State → State} {s : State}
    (hown : Completes parts s (own s)) : Completes parts s (noBody r own s) := by
  unfold noBody
  split
  · exact completes_refuse ..
  · exact hown

theorem begins_noBody {parts : List Part} {r : Request} {own : State → State} {s : State}
    (hown : Begins parts s (own s)) : Begins parts s (noBody r own s) := by
  unfold noBody
  split
  · exact (completes_refuse ..).begins
  · exact hown

theorem completes_withBody {α : Type} {parts : List Part} {r : Request} {own : α → State → State} {s : State}
    (hown : ∀ v, Completes parts s (own v s)) (b : Fit α) : Completes parts s (withBody r b own s) := by
  cases b with
  | none => exact completes_refuse ..
  | some v => exact hown v

theorem begins_withBody {α : Type} {parts : List Part} {r : Request} {own : α → State → State} {s : State}
    (hown : ∀ v, Begins parts s (own v s)) (b : Fit α) : Begins parts s (withBody r b own s) := by
  cases b with
  | none => exact (completes_refuse ..).begins
  | some v => exact hown v

/-! ## The rules of the reads -/

theorem completes_statusReadOwn (r : Request) (sel : StatusSelector) (s : State) : Completes [] s (statusReadOwn r sel s) := by
  cases sel with
  | common => exact completes_reply ..
  | group g => exact completes_reply ..
  | unknown => exact completes_refuse ..
  | misfit => exact completes_refuse ..

theorem completes_wholeRead (r : Request) (fits : Bool) (body : State → Body) (s : State) :
    Completes [] s (wholeRead r fits body s) := by
  unfold wholeRead
  split
  · exact completes_reply ..
  · exact completes_refuse ..

theorem completes_tableReadBandOwn (r : Request) (q : StartCount) (s : State) : Completes [] s (tableReadBandOwn r q s) := by
  unfold tableReadBandOwn
  split
  · exact completes_reply ..
  · exact completes_refuse ..

theorem completes_mapReadOwn (r : Request) (q : StartCount) (s : State) : Completes [] s (mapReadOwn r q s) := by
  unfold mapReadOwn
  split
  · exact completes_reply ..
  · exact completes_refuse ..

theorem completes_attachReadByStationOwn (r : Request) (station : Word32) (s : State) :
    Completes [] s (attachReadByStationOwn r station s) := by
  unfold attachReadByStationOwn
  split
  · exact completes_reply ..
  · exact completes_refuse ..

theorem completes_attachReadByRangeOwn (r : Request) (q : StartCount) (s : State) :
    Completes [] s (attachReadByRangeOwn r q s) := by
  unfold attachReadByRangeOwn
  split
  · exact completes_reply ..
  · exact completes_refuse ..

theorem completes_tallyReadBySlotOwn (r : Request) (q : StartCount) (s : State) :
    Completes [] s (tallyReadBySlotOwn r q s) := by
  unfold tallyReadBySlotOwn
  split
  · exact completes_reply ..
  · exact completes_refuse ..

theorem completes_tallyReadRankedOwn (r : Request) (q : StartCount) (s : State) :
    Completes [] s (tallyReadRankedOwn r q s) := by
  unfold tallyReadRankedOwn
  split
  · exact completes_reply ..
  · exact completes_refuse ..

theorem completes_tallyReadByKeyOwn (r : Request) (q : Nat × Option Place) (s : State) :
    Completes [] s (tallyReadByKeyOwn r q s) := by
  unfold tallyReadByKeyOwn
  split
  · exact completes_refuse ..
  · split
    · split
      · exact completes_reply ..
      · exact completes_refuse ..
    · exact completes_refuse ..

theorem completes_answerResult (r : Request) (found : Option SearchResult) (s : State) :
    Completes [] s (answerResult r found s) := by
  cases found with
  | some x => exact completes_reply ..
  | none => exact completes_refuse ..

theorem completes_resultReadLatestOwn (r : Request) (fits : Bool) (s : State) :
    Completes [] s (resultReadLatestOwn r fits s) := by
  unfold resultReadLatestOwn
  split
  · exact completes_answerResult ..
  · exact completes_refuse ..

theorem completes_resultReadByNumberOwn (r : Request) (n : Nat) (s : State) :
    Completes [] s (resultReadByNumberOwn r n s) := by
  unfold resultReadByNumberOwn
  split
  · exact completes_answerResult ..
  · exact completes_refuse ..

/-! ## The rules of the table writes -/

theorem confined_setChannel (n : Nat) (c : Channel) (s : State) : Confined [.channels] s (setChannel n c s) := by
  simp [confined_iff, Part.all, Agree, setChannel]

theorem confined_setBand (n : Nat) (b : Band) (s : State) : Confined [.bands] s (setBand n b s) := by
  simp [confined_iff, Part.all, Agree, setBand]

theorem confined_setCorrections (start : Nat) (run : List Correction) (s : State) :
    Confined [.corrections] s (setCorrections start run s) := by
  simp [confined_iff, Part.all, Agree, setCorrections]

theorem confined_setSlot (n : Nat) (e : SlotEntry) (s : State) : Confined [.slots, .reportQueue] s (setSlot n e s) := by
  simp [confined_iff, Part.all, Agree, setSlot, writeSlot]

theorem confined_setAlarm (n : Nat) (e : AlarmEntry) (s : State) : Confined [.alarms] s (setAlarm n e s) := by
  simp [confined_iff, Part.all, Agree, setAlarm]

theorem confined_evaluateAll (s : State) : Confined [.records, .reportQueue] s (evaluateAll s) := by
  simp [confined_iff, Part.all, Agree, evaluateAll]

theorem confined_applySettings (n : Settings) (s : State) :
    Confined [.settings, .records, .reportQueue] s (applySettings n s) := by
  have recordPut (aging : Nat) (interval : Option Nat) : Confined [.settings, .records, .reportQueue] s
      { s with
        mgmt := { s.mgmt with settings := n }
        tally := { s.tally with agingDue := aging }
        bands := { s.bands with intervalDue := interval } } := by
    simp [confined_iff, Part.all, Agree]
  unfold applySettings
  dsimp only
  split
  · exact recordPut _ _
  · exact (recordPut _ _).trans ((confined_evaluateAll _).mono (by simp))

theorem completes_tableWriteSettingsOwn (r : Request) (w : RawSettings) (s : State) :
    Completes [.settings, .records, .reportQueue] s (tableWriteSettingsOwn r w s) := by
  unfold tableWriteSettingsOwn
  split
  · exact completes_reply ..
  · exact (confined_applySettings _ s).completes (by decide) ..

theorem completes_tableWriteChannelOwn (r : Request) (w : RawChannel) (s : State) :
    Completes [.channels] s (tableWriteChannelOwn r w s) := by
  unfold tableWriteChannelOwn
  split
  · split
    · exact (confined_setChannel _ _ s).completes (by decide) ..
    · exact completes_refuse ..
  · exact completes_refuse ..

theorem completes_tableWriteBandOwn (r : Request) (w : RawBand) (s : State) :
    Completes [.bands] s (tableWriteBandOwn r w s) := by
  unfold tableWriteBandOwn
  split
  · split
    · split
      · exact completes_refuse ..
      · exact (confined_setBand _ _ s).completes (by decide) ..
    · exact completes_refuse ..
  · exact completes_refuse ..

theorem completes_tableWriteCorrectionOwn (r : Request) (w : StartCount × List Correction) (s : State) :
    Completes [.corrections] s (tableWriteCorrectionOwn r w s) := by
  unfold tableWriteCorrectionOwn
  split
  · exact completes_refuse ..
  · split
    · exact completes_refuse ..
    · split
      · exact completes_refuse ..
      · split
        · exact completes_refuse ..
        · exact (confined_setCorrections _ _ s).completes (by decide) ..

theorem completes_tableWriteReportSlotOwn (r : Request) (w : RawSlot) (s : State) :
    Completes [.slots, .reportQueue] s (tableWriteReportSlotOwn r w s) := by
  unfold tableWriteReportSlotOwn
  split
  · split
    · split
      · exact (confined_setSlot _ _ s).completes (by decide) ..
      · exact completes_refuse ..
    · exact completes_refuse ..
  · exact completes_refuse ..

theorem completes_tableWriteAlarmLineOwn (r : Request) (w : RawAlarm) (s : State) :
    Completes [.alarms] s (tableWriteAlarmLineOwn r w s) := by
  unfold tableWriteAlarmLineOwn
  split
  · split
    · exact (confined_setAlarm _ _ s).completes (by decide) ..
    · exact completes_refuse ..
  · exact completes_refuse ..

/-! ## The rules of the map and of the attachments -/

theorem confined_openMap (s : State) : Confined [.mapState, .records, .analysis] s (openMap s) := by
  unfold openMap leaveReady
  dsimp only
  split <;> simp [confined_iff, Part.all, Agree, noteMapLeft]

theorem completes_mapOpenOwn (r : Request) (s : State) :
    Completes [.mapState, .records, .analysis] s (mapOpenOwn r s) := by
  unfold mapOpenOwn
  split
  · exact completes_refuse ..
  · split
    · exact completes_refuse ..
    · split
      · exact completes_refuse ..
      · exact (confined_openMap s).completes (by decide) ..

theorem confined_setElements (t : Table Element) (s : State) : Confined [.elements] s (setElements t s) := by
  simp [confined_iff, Part.all, Agree, setElements]

theorem completes_mapWriteFields (r : Request) (w : Nat × List RawElement) (s : State) :
    Completes [.elements] s (mapWriteFields r w s) := by
  unfold mapWriteFields
  split
  · exact completes_refuse ..
  · split
    · exact completes_refuse ..
    · split
      · exact completes_reply ..
      · exact (confined_setElements _ s).completes (by decide) ..

theorem completes_mapWriteOwn (r : Request) (b : Fit (Nat × List RawElement)) (s : State) :
    Completes [.elements] s (mapWriteOwn r b s) := by
  unfold mapWriteOwn
  split
  · exact completes_withBody (fun w => completes_mapWriteFields r w s) b
  · exact completes_refuse ..

theorem completes_mapDeleteFields (r : Request) (w : Nat × List Nat) (s : State) :
    Completes [.elements] s (mapDeleteFields r w s) := by
  unfold mapDeleteFields
  split
  · exact completes_refuse ..
  · split
    · exact completes_refuse ..
    · exact (confined_setElements _ s).completes (by decide) ..

theorem completes_mapDeleteOwn (r : Request) (b : Fit (Nat × List Nat)) (s : State) :
    Completes [.elements] s (mapDeleteOwn r b s) := by
  unfold mapDeleteOwn
  split
  · exact completes_withBody (fun w => completes_mapDeleteFields r w s) b
  · exact completes_refuse ..

theorem completes_mapClearOwn (r : Request) (s : State) : Completes [.elements] s (mapClearOwn r s) := by
  unfold mapClearOwn
  split
  · exact (confined_setElements _ s).completes (by decide) ..
  · exact completes_refuse ..

theorem begins_mapCloseOwn (r : Request) (s : State) : Begins [.mapState] s (mapCloseOwn r s) := by
  have closing : Confined [.mapState] s { s with map := { s.map with closing := true } } := by
    simp [confined_iff, Part.all, Agree]
  unfold mapCloseOwn
  split
  · exact (completes_refuse ..).begins
  · split
    · exact (completes_refuse ..).begins
    · exact closing.begins (by decide)

theorem confined_setAttachments (t : Table Attachment) (s : State) : Confined [.attachments] s (setAttachments t s) := by
  simp [confined_iff, Part.all, Agree, setAttachments]

theorem confined_removeVoter (i : Nat) (s : State) : Confined [.records, .reportQueue] s (removeVoter i s) := by
  simp [confined_iff, Part.all, Agree, removeVoter]

theorem completes_attachSetFields (r : Request) (w : RawAttach) (s : State) :
    Completes [.attachments, .records, .reportQueue] s (attachSetFields r w s) := by
  unfold attachSetFields
  split
  · split
    · refine Confined.completes ?_ (by decide) ..
      split
      · exact (confined_setAttachments _ s).mono (by simp)
      · exact ((confined_setAttachments _ s).mono (by simp)).trans ((confined_removeVoter _ _).mono (by simp))
    · split
      · exact ((confined_setAttachments _ s).mono (by simp)).completes (by decide) ..
      · exact completes_refuse ..
  · exact completes_refuse ..

theorem completes_attachSetOwn (r : Request) (b : Fit RawAttach) (s : State) :
    Completes [.attachments, .records, .reportQueue] s (attachSetOwn r b s) := by
  unfold attachSetOwn
  split
  · exact completes_withBody (fun w => completes_attachSetFields r w s) b
  · exact completes_refuse ..

theorem completes_attachDeleteOwn (r : Request) (station : Word32) (s : State) :
    Completes [.attachments, .records, .reportQueue] s (attachDeleteOwn r station s) := by
  unfold attachDeleteOwn
  split
  · exact (((confined_setAttachments _ s).mono (by simp)).trans ((confined_removeVoter _ _).mono (by simp))).completes
      (by decide) ..
  · exact completes_refuse ..

/-! ## The rules of the engines' requests -/

theorem completes_clearIn {parts : List Part} (r : Request) (fits : Bool) (effect : State → State) (s : State)
    (h : Confined parts s (effect s)) (hq : Part.queues ∉ parts) : Completes parts s (clearIn r fits effect s) := by
  unfold clearIn
  split
  · exact h.completes hq ..
  · exact completes_refuse ..

theorem confined_clearTally (s : State) : Confined [.records] s (clearTally s) := by
  simp [confined_iff, Part.all, Agree, clearTally]

theorem confined_clearFlags (s : State) : Confined [.records] s (clearFlags s) := by
  simp [confined_iff, Part.all, Agree, clearFlags]

theorem confined_startSearch (w : RawSearch) (s : State) : Confined searchParts s (startSearch w s) := by
  have numberTaken : Confined searchParts s
      { s with search := { s.search with nextNumber := numberAfter s.search.nextNumber } } := by
    simp [confined_iff, Part.all, Agree, searchParts]
  exact numberTaken.trans (settle_touches _ _).confined

theorem completes_searchStartOwn (r : Request) (w : RawSearch) (s : State) :
    Completes searchParts s (searchStartOwn r w s) := by
  unfold searchStartOwn
  split
  · exact completes_refuse ..
  · exact (confined_startSearch w _).completes_after (by decide)

theorem completes_searchAbortOwn (r : Request) (s : State) : Completes searchParts s (searchAbortOwn r s) := by
  unfold searchAbortOwn
  split
  · exact completes_refuse ..
  · exact (fixCause_touches _ _).confined.completes_after (by decide)

theorem begins_placeDirect (address : Nat) (c : TlmCommand) (tag : Word16) (s : State) :
    Begins [.tlmWork] s (placeDirect address c tag s) := by
  have queued (q : List DirectEntry) : Confined [.tlmWork] s { s with tlm := { s.tlm with directQueue := q } } := by
    simp [confined_iff, Part.all, Agree]
  exact (queued _).begins (by decide)

theorem begins_directStepOwn (r : Request) (w : RawStep) (s : State) : Begins [.tlmWork] s (directStepOwn r w s) := by
  unfold directStepOwn
  split
  · exact (completes_refuse ..).begins
  · exact begins_placeDirect ..

theorem begins_directReleaseOwn (r : Request) (a : Nat) (s : State) : Begins [.tlmWork] s (directReleaseOwn r a s) := by
  unfold directReleaseOwn
  split
  · exact (completes_refuse ..).begins
  · exact begins_placeDirect ..

theorem begins_directQueryOwn (r : Request) (a : Nat) (s : State) : Begins [.tlmWork] s (directQueryOwn r a s) := by
  unfold directQueryOwn
  split
  · exact (completes_refuse ..).begins
  · exact begins_placeDirect ..

theorem completes_counterSnapshotOwn (r : Request) (s : State) : Completes [.bands] s (counterSnapshotOwn r s) := by
  unfold counterSnapshotOwn
  split
  · exact completes_refuse ..
  · exact (confined_intervalTransfer s).completes (by decide) ..

/-! ## The rules of the part as a whole -/

theorem completes_timeSetOwn (r : Request) (w : Word32) (s : State) : Completes [] s (timeSetOwn r w s) := by
  have timeOnly : Confined [] s (setTime w s) := by simp [confined_iff, Part.all, Agree, setTime]
  exact timeOnly.completes (by decide) ..

theorem completes_addressSetOwn (r : Request) (a : Nat) (s : State) : Completes [.address] s (addressSetOwn r a s) := by
  have addressOnly (b : Byte) : Confined [.address] s (setAddress b s) := by
    simp [confined_iff, Part.all, Agree, setAddress]
  unfold addressSetOwn
  split
  · exact (addressOnly _).completes (by decide) ..
  · exact completes_refuse ..

theorem begins_imageLoadOwn (r : Request) (s : State) : Begins [.image] s (imageLoadOwn r s) := by
  have loadBegun : Confined [.image] s (beginLoad .request s) := by simp [confined_iff, Part.all, Agree, beginLoad]
  unfold imageLoadOwn
  split
  · exact (completes_refuse ..).begins
  · split
    · exact (completes_refuse ..).begins
    · exact loadBegun.begins (by decide)

theorem begins_imageSaveOwn (r : Request) (s : State) : Begins [.image] s (imageSaveOwn r s) := by
  have saveBegun : Confined [.image] s (beginSave s) := by simp [confined_iff, Part.all, Agree, beginSave]
  unfold imageSaveOwn
  split
  · exact (completes_refuse ..).begins
  · exact saveBegun.begins (by decide)

/-- The parts that RESET_ENGINES can change. -/
def resetEnginesParts : List Part :=
  [.bands, .intake, .analysis, .records, .entries, .tlmWork, .search, .slots, .reportQueue]

theorem confined_resetEnginesState (s : State) : Confined resetEnginesParts s (resetEnginesState s) := by
  simp [confined_iff, Part.all, Agree, resetEnginesParts, resetEnginesState, resetSweep, resetEcho, resetEnginesReports]

theorem completes_resetEnginesOwn (r : Request) (s : State) : Completes resetEnginesParts s (resetEnginesOwn r s) :=
  (confined_resetEnginesState s).completes (by decide) ..

/-- The parts that RESET_ALL can change besides the queues: all but the link. -/
def resetAllParts : List Part := Part.all.filter (fun p => p != .link && p != .queues)

theorem begins_resetAllOwn (s : State) : Begins resetAllParts s (resetAllOwn s) := by
  have reset : Confined resetAllParts s (resetAllState s) := by
    simp [confined_iff, Part.all, Agree, resetAllParts, resetAllState, resetEnginesState]
  exact reset.begins (by decide)

end Sys2Proof.Machine
end

section
/-! The completions of a close, a load and a save, and the table of all commands: which parts each may change, and for a
request what becomes of it. -/

namespace Sys2Proof.Machine

/-! ## Completions -/

/-- The parts that the completion of a close can change. -/
def closeParts : List Part := [.queues, .mapState, .attachments, .entries]

theorem confined_completeClose (s : State) : Confined closeParts s (completeClose s) := by
  have emptied : Confined [.mapState, .attachments, .entries] s (becomeEmpty s) := by
    simp [confined_iff, Part.all, Agree, becomeEmpty, rebuild]
  have readied : Confined [.mapState, .attachments, .entries] s (becomeReady s) := by
    simp [confined_iff, Part.all, Agree, becomeReady, rebuild]
  have faulted (e : MapError) : Confined [.mapState, .attachments, .entries] s
      { s with map := { s.map with error := some e, closing := false } } := by simp [confined_iff, Part.all, Agree]
  unfold completeClose
  split
  · split
    · exact emptied.then_answerHead ..
    · split
      · exact readied.then_answerHead ..
      · exact (faulted _).then_answerHead ..
  · exact .refl _ s

/-- The parts that the completion of a load can change besides the queues. -/
def loadParts : List Part :=
  [.settings, .records, .reportQueue, .channels, .bands, .corrections, .alarms, .slots, .analysis, .elements, .mapState,
    .attachments, .entries, .image]

theorem confined_loadSettings (l : List ImageRecord) (s : State) : Confined [.settings, .records, .reportQueue] s (loadSettings l s) :=
  confined_foldl _ (fun t w => confined_applySettings (settingsOf w) t) _ s

theorem confined_elim {α : Type} {parts : List Part} (x : Option α) (f : α → State) (s : State)
    (h : ∀ a, Confined parts s (f a)) : Confined parts s (x.elim s f) := by
  cases x with
  | none => exact .refl parts s
  | some a => exact h a

theorem confined_loadEntries (l : List ImageRecord) (s : State) :
    Confined [.channels, .bands, .corrections, .alarms] s (loadEntries l s) := by
  have channel (t : State) (w : RawChannel) : Confined [.channels, .bands, .corrections, .alarms] t
      ((channelOf w).elim t (fun c => setChannel w.channel c t)) :=
    confined_elim _ _ t fun c => (confined_setChannel _ c t).mono (by simp)
  have band (t : State) (w : RawBand) : Confined [.channels, .bands, .corrections, .alarms] t
      ((bandOf w).elim t (fun b => setBand w.band b t)) :=
    confined_elim _ _ t fun b => (confined_setBand _ b t).mono (by simp)
  have correction (t : State) (p : Nat × Correction) : Confined [.channels, .bands, .corrections, .alarms] t
      (setCorrections p.1 [p.2] t) := (confined_setCorrections _ _ t).mono (by simp)
  have alarm (t : State) (w : RawAlarm) : Confined [.channels, .bands, .corrections, .alarms] t
      ((alarmOf w).elim t (fun a => setAlarm w.line a t)) :=
    confined_elim _ _ t fun a => (confined_setAlarm _ a t).mono (by simp)
  unfold loadEntries
  exact (((confined_foldl _ channel _ s).trans (confined_foldl _ band _ _)).trans (confined_foldl _ correction _ _)).trans
    (confined_foldl _ alarm _ _)

theorem confined_loadSlots (l : List ImageRecord) (s : State) : Confined [.slots, .reportQueue] s (loadSlots l s) :=
  confined_foldl (fun t (w : RawSlot) => (slotOf w).elim t (fun e => setSlot w.slot e t))
    (fun t w => confined_elim _ _ t fun e => confined_setSlot w.slot e t) _ s

theorem confined_loadElements (l : List ImageRecord) (s : State) :
    Confined [.elements, .records, .analysis] s (loadElements l s) := by
  unfold loadElements leaveReady
  dsimp only
  split <;> simp [confined_iff, Part.all, Agree, emptyTally, noteMapLeft]

theorem confined_loadMap (l : List ImageRecord) (s : State) : Confined [.mapState, .attachments, .entries] s (loadMap l s) := by
  unfold loadMap
  dsimp only
  split
  · simp [confined_iff, Part.all, Agree, rebuild]
  · split <;> simp [confined_iff, Part.all, Agree, rebuild]

theorem confined_setStatus (st : ImageStatus) (s : State) : Confined [.image] s (setStatus st s) := by
  simp [confined_iff, Part.all, Agree, setStatus]

theorem confined_loadGood (l : List ImageRecord) (s : State) : Confined loadParts s (loadGood l s) := by
  have settings := (confined_loadSettings l s).mono (more := loadParts) (by simp [loadParts])
  have entries (t : State) := (confined_loadEntries l t).mono (more := loadParts) (by simp [loadParts])
  have slots (t : State) := (confined_loadSlots l t).mono (more := loadParts) (by simp [loadParts])
  have elements (t : State) := (confined_loadElements l t).mono (more := loadParts) (by simp [loadParts])
  have map (t : State) := (confined_loadMap l t).mono (more := loadParts) (by simp [loadParts])
  have status (t : State) := (confined_setStatus .loaded t).mono (more := loadParts) (by simp [loadParts])
  exact ((((settings.trans (entries _)).trans (slots _)).trans (elements _)).trans (map _)).trans (status _)

theorem confined_answerLoad (who : LoadOrigin) (s : State) : Confined [.queues] s (answerLoad who s) := by
  unfold answerLoad
  split
  · exact .refl _ s
  · exact confined_answerHead ..
  · split <;> exact confined_answerHead ..

theorem confined_completeLoad (s : State) : Confined (.queues :: loadParts) s (completeLoad s) := by
  unfold completeLoad
  split
  · exact .refl _ s
  · split
    · exact ((confined_loadGood _ s).mono (by simp)).trans ((confined_answerLoad _ _).mono (by simp))
    · exact ((confined_setStatus _ s).mono (by simp [loadParts])).trans ((confined_answerLoad _ _).mono (by simp))

theorem confined_completeSave (s : State) : Confined [.queues, .image] s (completeSave s) := by
  have ended (l : List ImageRecord) : Confined [.image] s (endSave l s) := by simp [confined_iff, Part.all, Agree, endSave]
  unfold completeSave
  split
  · exact .refl _ s
  · exact (ended _).then_answerHead ..

/-! ## The table -/

/-- The parts that a command may change; of a request, those besides its queues. -/
def commandChanges : Instr → List Part
  | .powerOn _ | .pinReset _ => Part.all
  | .plantTimeTick => []
  | .lossOfSignal _ | .invalidHeader _ _ => .link :: searchParts
  | .signalReturn _ | .headerTestHunting _ _ | .validHeader _ _ => [.link]
  | .burstDesc _ => [.link, .intake]
  | .spectrumSeg _ => .link :: .bands :: searchParts
  | .mgmtReq _ _ => [.link, .queues]
  | .frameArrival _ _ | .nodeTxChoice | .crcIntervalExpiry => [.link]
  | .hubTxChoice => [.link, .queues, .slots, .reportQueue]
  | .analysisBegin => [.analysis]
  | .analysisCompletion => [.intake, .analysis, .reportQueue, .records]
  | .agingExpiry => [.records]
  | .bandIntervalExpiry => [.bands]
  | .tlmTransactionStart => [.entries, .tlmWork]
  | .tlmReplyFrame _ | .tlmWatchdogExpiry | .byteHeard _ => transactionParts
  | .lapseDeadline _ => .entries :: searchParts
  | .measureDeadline => searchParts
  | .periodTimerExpiry _ => [.slots, .reportQueue]
  | .statusRead _ _ | .unknownRequest _ _ => []
  | .tableReadChannel _ _ | .tableReadBand _ _ | .tableReadCorrection _ _ => []
  | .tableReadSettings _ _ | .tableReadReportSlot _ _ | .tableReadAlarmLine _ _ => []
  | .tableWriteChannel _ _ => [.channels]
  | .tableWriteBand _ _ => [.bands]
  | .tableWriteCorrection _ _ => [.corrections]
  | .tableWriteSettings _ _ => [.settings, .records, .reportQueue]
  | .tableWriteReportSlot _ _ => [.slots, .reportQueue]
  | .tableWriteAlarmLine _ _ => [.alarms]
  | .mapOpen _ => [.mapState, .records, .analysis]
  | .mapWrite _ _ | .mapDelete _ _ | .mapClear _ => [.elements]
  | .mapClose _ => [.mapState]
  | .mapCloseCompletion => closeParts
  | .mapRead _ _ | .attachReadByStation _ _ | .attachReadByRange _ _ => []
  | .attachSet _ _ | .attachDelete _ _ => [.attachments, .records, .reportQueue]
  | .tallyReadBySlot _ _ | .tallyReadRanked _ _ | .tallyReadByKey _ _ => []
  | .tallyClearAll _ _ | .tallyClearFlags _ _ => [.records]
  | .searchStart _ _ | .searchAbort _ => searchParts
  | .resultReadLatest _ _ | .resultReadByNumber _ _ => []
  | .directStep _ _ | .directRelease _ _ | .directQuery _ _ => [.tlmWork]
  | .counterSnapshot _ => [.bands]
  | .addressSet _ _ => [.address]
  | .timeSet _ _ => []
  | .imageLoad _ | .imageSave _ => [.image]
  | .imageLoadCompletion => .queues :: loadParts
  | .imageSaveCompletion => [.queues, .image]
  | .resetEngines _ => resetEnginesParts
  | .resetAll _ => resetAllParts

/-- The requests that may hold the head. -/
def commandHolds : Instr → Bool
  | .mapClose _ | .directStep _ _ | .directRelease _ _ | .directQuery _ _ | .imageLoad _ | .imageSave _ | .resetAll _ => true
  | _ => false

/-- What a request's row can do: nothing, an answer in the same event, or the beginning of an operation. -/
inductive RequestStep (r : Request) (holds : Bool) (parts : List Part) (s t : State) : Prop
  | waits (h : t = s)
  | completes (hbegin : MayBegin r s) (h : Completes parts s t)
  | held (hexecutes : Executes r s) (hholds : holds = true) (hconfined : Confined (.queues :: parts) s t) (h : Held s t)

/-- The three ways of `RequestStep` for a row whose rule always answers or begins. -/
theorem RequestStep.of_begins {r : Request} {own : State → State} {s t : State} {parts : List Part}
    (h : runRequest r own s = .next t) (hown : Begins parts s (own s)) : RequestStep r true parts s t := by
  by_cases hb : MayBegin r s
  · cases hc : admissionRefusal r s with
    | some code =>
      cases (runRequest_of_refusal own hb hc).symm.trans h
      exact .completes hb (completes_refuse ..)
    | none =>
      have he : Executes r s := ⟨hb, (admissionRefusal_eq_none_iff r s).mp hc⟩
      cases (runRequest_of_executes own he).symm.trans h
      exact hown.outcome.elim (fun ha => .completes hb ⟨hown.confined, ha⟩) (fun hh => .held he rfl hown.confined hh)
  · cases (runRequest_of_not_mayBegin own hb).symm.trans h
    exact .waits rfl

theorem RequestStep.of_completes {r : Request} {own : State → State} {s t : State} {parts : List Part}
    (h : runRequest r own s = .next t) (hown : Completes parts s (own s)) : RequestStep r false parts s t := by
  by_cases hb : MayBegin r s
  · refine .completes hb ?_
    cases hc : admissionRefusal r s with
    | some code =>
      cases (runRequest_of_refusal own hb hc).symm.trans h
      exact completes_refuse ..
    | none =>
      cases (runRequest_of_executes own ⟨hb, (admissionRefusal_eq_none_iff r s).mp hc⟩).symm.trans h
      exact hown
  · cases (runRequest_of_not_mayBegin own hb).symm.trans h
    exact .waits rfl

/-- What every request row can do. -/
theorem exec_request {c : Instr} {r : Request} {s t : State} (hc : c.request = some r) (h : exec c s = .next t) :
    RequestStep r (commandHolds c) (commandChanges c) s t := by
  cases c
  case statusRead => cases hc; exact .of_completes h (completes_statusReadOwn ..)
  case unknownRequest => cases hc; exact .of_completes h (completes_refuse ..)
  case tableReadChannel => cases hc; exact .of_completes h (completes_wholeRead ..)
  case tableReadCorrection => cases hc; exact .of_completes h (completes_wholeRead ..)
  case tableReadSettings => cases hc; exact .of_completes h (completes_wholeRead ..)
  case tableReadReportSlot => cases hc; exact .of_completes h (completes_wholeRead ..)
  case tableReadAlarmLine => cases hc; exact .of_completes h (completes_wholeRead ..)
  case tableReadBand => cases hc; exact .of_completes h (completes_withBody (fun v => completes_tableReadBandOwn _ v s) _)
  case tableWriteChannel =>
    cases hc; exact .of_completes h (completes_withBody (fun v => completes_tableWriteChannelOwn _ v s) _)
  case tableWriteBand => cases hc; exact .of_completes h (completes_withBody (fun v => completes_tableWriteBandOwn _ v s) _)
  case tableWriteCorrection =>
    cases hc; exact .of_completes h (completes_withBody (fun v => completes_tableWriteCorrectionOwn _ v s) _)
  case tableWriteSettings =>
    cases hc; exact .of_completes h (completes_withBody (fun v => completes_tableWriteSettingsOwn _ v s) _)
  case tableWriteReportSlot =>
    cases hc; exact .of_completes h (completes_withBody (fun v => completes_tableWriteReportSlotOwn _ v s) _)
  case tableWriteAlarmLine =>
    cases hc; exact .of_completes h (completes_withBody (fun v => completes_tableWriteAlarmLineOwn _ v s) _)
  case mapOpen => cases hc; exact .of_completes h (completes_noBody (completes_mapOpenOwn ..))
  case mapWrite => cases hc; exact .of_completes h (completes_mapWriteOwn ..)
  case mapDelete => cases hc; exact .of_completes h (completes_mapDeleteOwn ..)
  case mapClear => cases hc; exact .of_completes h (completes_noBody (completes_mapClearOwn ..))
  case mapClose => cases hc; exact .of_begins h (begins_noBody (begins_mapCloseOwn ..))
  case mapRead => cases hc; exact .of_completes h (completes_withBody (fun v => completes_mapReadOwn _ v s) _)
  case attachSet => cases hc; exact .of_completes h (completes_attachSetOwn ..)
  case attachDelete => cases hc; exact .of_completes h (completes_withBody (fun v => completes_attachDeleteOwn _ v s) _)
  case attachReadByStation =>
    cases hc; exact .of_completes h (completes_withBody (fun v => completes_attachReadByStationOwn _ v s) _)
  case attachReadByRange =>
    cases hc; exact .of_completes h (completes_withBody (fun v => completes_attachReadByRangeOwn _ v s) _)
  case tallyReadBySlot =>
    cases hc; exact .of_completes h (completes_withBody (fun v => completes_tallyReadBySlotOwn _ v s) _)
  case tallyReadRanked =>
    cases hc; exact .of_completes h (completes_withBody (fun v => completes_tallyReadRankedOwn _ v s) _)
  case tallyReadByKey =>
    cases hc; exact .of_completes h (completes_withBody (fun v => completes_tallyReadByKeyOwn _ v s) _)
  case tallyClearAll => cases hc; exact .of_completes h (completes_clearIn (parts := [.records]) _ _ _ s (confined_clearTally s) (by decide))
  case tallyClearFlags => cases hc; exact .of_completes h (completes_clearIn (parts := [.records]) _ _ _ s (confined_clearFlags s) (by decide))
  case searchStart => cases hc; exact .of_completes h (completes_withBody (fun v => completes_searchStartOwn _ v s) _)
  case searchAbort => cases hc; exact .of_completes h (completes_noBody (completes_searchAbortOwn ..))
  case resultReadLatest => cases hc; exact .of_completes h (completes_resultReadLatestOwn ..)
  case resultReadByNumber =>
    cases hc; exact .of_completes h (completes_withBody (fun v => completes_resultReadByNumberOwn _ v s) _)
  case directStep => cases hc; exact .of_begins h (begins_withBody (fun v => begins_directStepOwn _ v s) _)
  case directRelease => cases hc; exact .of_begins h (begins_withBody (fun v => begins_directReleaseOwn _ v s) _)
  case directQuery => cases hc; exact .of_begins h (begins_withBody (fun v => begins_directQueryOwn _ v s) _)
  case counterSnapshot => cases hc; exact .of_completes h (completes_noBody (completes_counterSnapshotOwn ..))
  case addressSet => cases hc; exact .of_completes h (completes_withBody (fun v => completes_addressSetOwn _ v s) _)
  case timeSet => cases hc; exact .of_completes h (completes_withBody (fun v => completes_timeSetOwn _ v s) _)
  case imageLoad => cases hc; exact .of_begins h (begins_noBody (begins_imageLoadOwn ..))
  case imageSave => cases hc; exact .of_begins h (begins_noBody (begins_imageSaveOwn ..))
  case resetEngines => cases hc; exact .of_completes h (completes_noBody (completes_resetEnginesOwn ..))
  case resetAll => cases hc; exact .of_begins h (begins_noBody (begins_resetAllOwn s))
  all_goals cases hc

/-- The parts that a command may change, a request's queues among them. -/
def commandTouches (c : Instr) : List Part := if c.request.isSome then .queues :: commandChanges c else commandChanges c

/-- The start of a transaction answers a next state: the transaction's, or the same state. -/
theorem exec_tlmTransactionStart_cases {s t : State} (h : exec .tlmTransactionStart s = .next t) :
    t = s ∨ ∃ who address c, s.tlm.transaction = none ∧ arbiterChoice s.tlm = some (who, address, c)
      ∧ t = startTransaction who address c s := by
  change execTlmTransactionStart s = .next t at h
  unfold execTlmTransactionStart at h
  split at h
  · next who address c htx hchoice => cases h; exact .inr ⟨who, address, c, htx, hchoice, rfl⟩
  · cases h; exact .inl rfl

/-- No command changes more than its parts of the table. -/
theorem exec_confined {c : Instr} {s t : State} (h : exec c s = .next t) : Confined (commandTouches c) s t := by
  cases hc : c.request with
  | some r =>
    rw [commandTouches, hc, Option.isSome_some, if_pos rfl]
    obtain rfl | ⟨-, hdone⟩ | ⟨-, -, hconfined, -⟩ := exec_request hc h
    · exact .refl _ t
    · exact hdone.confined
    · exact hconfined
  | none =>
    rw [commandTouches, hc, Option.isSome_none, if_neg Bool.false_ne_true]
    cases c
    case powerOn => exact ⟨fun p hp => .inl hp⟩
    case pinReset => exact ⟨fun p hp => .inl hp⟩
    case plantTimeTick => exact confined_inTurn h (confined_tick s)
    case lossOfSignal => exact confined_inTurn h (confined_loseSignal _ s)
    case signalReturn => exact confined_inTurn h (confined_regainSignal _ s)
    case headerTestHunting => exact confined_inTurn h (confined_testHeader _ _ s)
    case invalidHeader => exact confined_inTurn h (confined_missHeader _ _ s)
    case validHeader => exact confined_inTurn h (confined_beginFrame _ _ s)
    case burstDesc => exact confined_inTurn h (confined_receiveDescriptor _ s)
    case spectrumSeg => exact confined_inTurn h (confined_receiveSegment _ s)
    case mgmtReq => exact confined_inTurn h (confined_takeRequest _ _ s)
    case frameArrival => exact confined_inTurn h (confined_receiveOther _ _ s)
    case hubTxChoice =>
      refine confined_inTurn h ?_
      split
      · exact confined_hubChoice s
      · exact .refl _ s
    case nodeTxChoice =>
      refine confined_inTurn h ?_
      split
      · exact confined_nodeChoice s
      · exact .refl _ s
    case crcIntervalExpiry => exact confined_inTurn h (confined_crcExpiry s)
    case analysisBegin => exact confined_inTurn h (confined_beginAnalysis s)
    case analysisCompletion => exact confined_inTurn h (confined_completeAnalysis s)
    case agingExpiry => exact confined_inTurn h (confined_agingExpiry s)
    case bandIntervalExpiry => exact confined_inTurn h (confined_bandIntervalExpiry s)
    case tlmTransactionStart =>
      obtain rfl | ⟨who, address, c, -, -, rfl⟩ := exec_tlmTransactionStart_cases h
      · exact .refl _ t
      · exact confined_startTransaction ..
    case tlmReplyFrame => exact confined_inTurn h (confined_hearFrame _ s)
    case tlmWatchdogExpiry => exact confined_inTurn h (confined_watchdogExpiry s)
    case byteHeard => exact confined_inTurn h (confined_hearByte _ s)
    case lapseDeadline => exact confined_inTurn h (confined_lapse _ s)
    case measureDeadline => exact confined_inTurn h (confined_measureExpiry s)
    case periodTimerExpiry => exact confined_inTurn h (confined_periodExpiry _ s)
    case mapCloseCompletion => exact confined_inTurn h (confined_completeClose s)
    case imageLoadCompletion => exact confined_inTurn h (confined_completeLoad s)
    case imageSaveCompletion => exact confined_inTurn h (confined_completeSave s)
    all_goals cases hc

/-! ## Steps -/

/-- A step runs a command on the state with the rest of the queue, or idles. -/
theorem step_cases {s t : State} (h : step s = .next t) :
    t = s ∨ ∃ c rest, s.pending = c :: rest ∧ exec c { s with pending := rest } = .next t := by
  unfold step at h
  split at h
  · cases h; exact .inl rfl
  · next c rest hp => exact .inr ⟨c, rest, hp, h⟩

/-- A law of the state that no waiting command enters is kept by every step once every command keeps it. -/
theorem step_keeps {P Q : State → Prop} (hpending : ∀ s rest, P s → P { s with pending := rest })
    (hkept : ∀ s, P s → Q s) (hexec : ∀ c s t, P s → exec c s = .next t → Q t) {s t : State} (hs : P s)
    (h : step s = .next t) : Q t := by
  obtain rfl | ⟨c, rest, -, hc⟩ := step_cases h
  · exact hkept t hs
  · exact hexec c _ t (hpending s rest hs) hc

/-- An event's outcome, whether or not it had its turn: the state itself, or its effect in a quiet state. -/
theorem inTurn_next {own : State → State} {s t : State} (h : inTurn own s = .next t) : t = s ∨ (Quiet s ∧ t = own s) := by
  obtain ⟨hq, hran⟩ | ⟨-, hwaits⟩ := inTurn_cases own s
  · cases hran.symm.trans h; exact .inr ⟨hq, rfl⟩
  · cases hwaits.symm.trans h; exact .inl rfl

/-- A property that holds of a state and of an event's effect holds of the event's outcome. -/
theorem inTurn_keeps {P : State → Prop} {own : State → State} {s t : State} (h : inTurn own s = .next t) (hs : P s)
    (hown : P (own s)) : P t := by
  obtain rfl | ⟨-, rfl⟩ := inTurn_next h
  · exact hs
  · exact hown

/-- A property that holds of a state, of a refusal in it and of a rule's effect holds of a request's outcome. -/
theorem runRequest_keeps {P : State → Prop} {r : Request} {own : State → State} {s t : State}
    (h : runRequest r own s = .next t) (hs : P s) (hrefuse : ∀ code, P (refuse r code s)) (hown : Executes r s → P (own s)) :
    P t := by
  obtain hsame | ⟨code, hrefused⟩ | ⟨he, hran⟩ := runRequest_cases r own s
  · cases hsame.symm.trans h; exact hs
  · cases hrefused.symm.trans h; exact hrefuse code
  · cases hran.symm.trans h; exact hown he

theorem noBody_keeps {P : State → Prop} {r : Request} {own : State → State} {s : State} (hrefuse : P (refuse r .badRequest s))
    (hown : P (own s)) : P (noBody r own s) := by
  unfold noBody
  split
  · exact hrefuse
  · exact hown

theorem withBody_keeps {α : Type} {P : State → Prop} {r : Request} {own : α → State → State} {s : State} (b : Fit α)
    (hrefuse : P (refuse r .badRequest s)) (hown : ∀ v, P (own v s)) : P (withBody r b own s) := by
  cases b with
  | none => exact hrefuse
  | some v => exact hown v

end Sys2Proof.Machine
end

section
/-! How a law that speaks of some parts alone goes through a step, and the laws of the intake counters, the bands and the
results (O51, O55, O58). -/

namespace Sys2Proof.Machine

/-! ## A law of some parts -/

/-- A property that looks at no part but those named. -/
def DependsOn (parts : List Part) (P : State → Prop) : Prop := ∀ s t, (∀ p ∈ parts, Agree s t p) → P s → P t

theorem DependsOn.keeps {parts touched : List Part} {P : State → Prop} (h : DependsOn parts P) {s t : State}
    (hc : Confined touched s t) (hd : ∀ p ∈ parts, p ∉ touched) (hs : P s) : P t :=
  h s t (fun p hp => hc.agree p (hd p hp)) hs

theorem DependsOn.pending {parts : List Part} {P : State → Prop} (h : DependsOn parts P) (s : State) (rest : List Instr)
    (hs : P s) : P { s with pending := rest } :=
  h s _ (fun p _ => by cases p <;> simp [Agree]) hs

/-- A command may change one of the parts named. -/
def touchesAny (parts : List Part) (c : Instr) : Bool := parts.any (fun p => decide (p ∈ commandTouches c))

/-- A law is kept by every step once it is kept by every command that may change one of its parts. -/
theorem DependsOn.step {parts : List Part} {P : State → Prop} (h : DependsOn parts P)
    (hexec : ∀ c s t, touchesAny parts c = true → P s → exec c s = .next t → P t) {s t : State} (hs : P s)
    (hstep : step s = .next t) : P t := by
  refine step_keeps h.pending (fun _ => id) (fun c s t hs hc => ?_) hs hstep
  cases hm : touchesAny parts c with
  | true => exact hexec c s t hm hs hc
  | false => exact h.keeps (exec_confined hc) (by simpa [touchesAny] using hm) hs

/-! ## Folds of a load -/

theorem mem_imageSettings {l : List ImageRecord} {w : RawSettings} : w ∈ imageSettings l ↔ .settings w ∈ l := by
  simp [imageSettings, List.mem_filterMap]
  exact ⟨fun ⟨x, hx, h⟩ => by cases x <;> simp_all, fun h => ⟨_, h, rfl⟩⟩

theorem mem_imageChannels {l : List ImageRecord} {w : RawChannel} : w ∈ imageChannels l ↔ .channel w ∈ l := by
  simp [imageChannels, List.mem_filterMap]
  exact ⟨fun ⟨x, hx, h⟩ => by cases x <;> simp_all, fun h => ⟨_, h, rfl⟩⟩

theorem mem_imageBands {l : List ImageRecord} {w : RawBand} : w ∈ imageBands l ↔ .band w ∈ l := by
  simp [imageBands, List.mem_filterMap]
  exact ⟨fun ⟨x, hx, h⟩ => by cases x <;> simp_all, fun h => ⟨_, h, rfl⟩⟩

theorem mem_imageCorrections {l : List ImageRecord} {n : Nat} {c : Correction} :
    (n, c) ∈ imageCorrections l ↔ .correction n c ∈ l := by
  simp [imageCorrections, List.mem_filterMap]
  exact ⟨fun ⟨x, hx, h⟩ => by cases x <;> simp_all, fun h => ⟨_, h, rfl⟩⟩

theorem mem_imageSlots {l : List ImageRecord} {w : RawSlot} : w ∈ imageSlots l ↔ .slot w ∈ l := by
  simp [imageSlots, List.mem_filterMap]
  exact ⟨fun ⟨x, hx, h⟩ => by cases x <;> simp_all, fun h => ⟨_, h, rfl⟩⟩

theorem mem_imageAlarms {l : List ImageRecord} {w : RawAlarm} : w ∈ imageAlarms l ↔ .alarm w ∈ l := by
  simp [imageAlarms, List.mem_filterMap]
  exact ⟨fun ⟨x, hx, h⟩ => by cases x <;> simp_all, fun h => ⟨_, h, rfl⟩⟩

theorem mem_imageElements {l : List ImageRecord} {w : RawElement} : w ∈ imageElements l ↔ .element w ∈ l := by
  simp [imageElements, List.mem_filterMap]
  exact ⟨fun ⟨x, hx, h⟩ => by cases x <;> simp_all, fun h => ⟨_, h, rfl⟩⟩

theorem mem_imageAttachments {l : List ImageRecord} {i : Nat} {w : RawAttach} :
    (i, w) ∈ imageAttachments l ↔ .attachment i w ∈ l := by
  simp [imageAttachments, List.mem_filterMap]
  exact ⟨fun ⟨x, hx, h⟩ => by cases x <;> simp_all, fun h => ⟨_, h, rfl⟩⟩

/-- What the writes of the channel, band, correction and alarm line records keep, step 2 of a load keeps. -/
theorem loadEntries_keeps {P : State → Prop} {l : List ImageRecord}
    (hchannel : ∀ t w c, .channel w ∈ l → channelOf w = some c → P t → P (setChannel w.channel c t))
    (hband : ∀ t w b, .band w ∈ l → bandOf w = some b → P t → P (setBand w.band b t))
    (hcorrection : ∀ t n c, .correction n c ∈ l → P t → P (setCorrections n [c] t))
    (halarm : ∀ t w e, .alarm w ∈ l → alarmOf w = some e → P t → P (setAlarm w.line e t)) {s : State} (hs : P s) :
    P (loadEntries l s) := by
  unfold loadEntries
  refine List.foldlRecOn _ _ (List.foldlRecOn _ _ (List.foldlRecOn _ _ (List.foldlRecOn _ _ hs ?_) ?_) ?_) ?_
  · intro t ht w hw
    cases hc : channelOf w with
    | none => exact ht
    | some c => exact hchannel t w c (mem_imageChannels.mp hw) hc ht
  · intro t ht w hw
    cases hb : bandOf w with
    | none => exact ht
    | some b => exact hband t w b (mem_imageBands.mp hw) hb ht
  · intro t ht p hp
    exact hcorrection t p.1 p.2 (mem_imageCorrections.mp hp) ht
  · intro t ht w hw
    cases he : alarmOf w with
    | none => exact ht
    | some e => exact halarm t w e (mem_imageAlarms.mp hw) he ht

/-- What the writes of the report slot records keep, step 3 of a load keeps. -/
theorem loadSlots_keeps {P : State → Prop} {l : List ImageRecord}
    (hslot : ∀ t w e, .slot w ∈ l → slotOf w = some e → P t → P (setSlot w.slot e t)) {s : State} (hs : P s) :
    P (loadSlots l s) := by
  refine List.foldlRecOn _ _ hs fun t ht w hw => ?_
  cases he : slotOf w with
  | none => exact ht
  | some e => exact hslot t w e (mem_imageSlots.mp ((sortBy_perm _ _).mem_iff.mp hw)) he ht

/-- What the write of the settings record keeps, step 1 of a load keeps. -/
theorem loadSettings_keeps {P : State → Prop} {l : List ImageRecord}
    (hsettings : ∀ t w, .settings w ∈ l → P t → P (applySettings (settingsOf w) t)) {s : State} (hs : P s) :
    P (loadSettings l s) :=
  List.foldlRecOn _ _ hs fun t ht w hw => hsettings t w (mem_imageSettings.mp hw) ht

/-- Every record of a good image passes its checks (R192). -/
theorem recordOk_of_imageGood {f : Flash} (h : imageGood f = true) {x : ImageRecord} (hx : x ∈ f.records) : recordOk x = true := by
  simp only [imageGood, Bool.and_eq_true, List.all_eq_true] at h
  exact h.2 x hx

/-- What a load's completion comes to. -/
theorem completeLoad_cases (s : State) : (s.image.load = none ∧ completeLoad s = s)
    ∨ ∃ who, s.image.load = some who
      ∧ ((imageGood s.image.flash = true ∧ completeLoad s = answerLoad who (loadGood s.image.flash.records s))
        ∨ (imageGood s.image.flash = false ∧ completeLoad s = answerLoad who (setStatus .invalid s))) := by
  unfold completeLoad
  cases hl : s.image.load with
  | none => exact .inl ⟨rfl, rfl⟩
  | some who =>
    refine .inr ⟨who, rfl, ?_⟩
    cases hg : imageGood s.image.flash with
    | true => exact .inl ⟨rfl, by simp⟩
    | false => exact .inr ⟨rfl, by simp⟩

/-- A law without the queues and the loader's own fields is kept by a load's completion once a good image's load keeps it. -/
theorem DependsOn.completeLoad {parts : List Part} {P : State → Prop} (h : DependsOn parts P)
    (hq : ∀ p ∈ parts, p ∉ [Part.queues, .image]) {s : State} (hs : P s)
    (hgood : imageGood s.image.flash = true → P (loadGood s.image.flash.records s)) : P (completeLoad s) := by
  have hqueues : ∀ p ∈ parts, p ∉ [Part.queues] := fun p hp hm => hq p hp (by simp at hm; simp [hm])
  have himage : ∀ p ∈ parts, p ∉ [Part.image] := fun p hp hm => hq p hp (by simp at hm; simp [hm])
  obtain ⟨-, heq⟩ | ⟨who, -, ⟨hg, heq⟩ | ⟨-, heq⟩⟩ := completeLoad_cases s
  · rwa [heq]
  · rw [heq]; exact h.keeps (confined_answerLoad who _) hqueues (hgood hg)
  · rw [heq]; exact h.keeps (confined_answerLoad who _) hqueues (h.keeps (confined_setStatus .invalid s) himage hs)

/-! ## The intake counters (R33) -/

theorem dependsOn_intakeLaw : DependsOn [.intake] IntakeLaw := by
  intro s t h
  obtain ⟨hqueue, hcounters⟩ := h .intake (by simp)
  simp [IntakeLaw, hqueue, hcounters]

theorem intakeLaw_offerDescriptor (f : Sys2Proof.Frame) {s : State} (h : IntakeLaw s) :
    IntakeLaw { s with echo := offerDescriptor f s.echo } := by
  unfold offerDescriptor
  split
  · exact h
  · split
    · simp only [IntakeLaw, bump, List.length_append, List.length_singleton] at h ⊢
      omega
    · exact h

theorem intakeLaw_finishAnalysis (o : AnalysisOutcome) {s : State} (hqueue : s.echo.queue ≠ []) (h : IntakeLaw s) :
    IntakeLaw (finishAnalysis o s) := by
  obtain ⟨d, rest, hd⟩ := List.exists_cons_of_ne_nil hqueue
  simp only [IntakeLaw, hd, List.length_cons] at h
  cases o with
  | result r => cases r <;> simp only [IntakeLaw, finishAnalysis, countOutcome, hd, List.tail_cons, bump] at * <;> omega
  | mapNotReady | channelOff | unknownStation | suppressed | eqInvalid | clean =>
    simp only [IntakeLaw, finishAnalysis, countOutcome, hd, List.tail_cons, bump] at *
    omega

theorem intakeLaw_completeAnalysis {s : State} (h : IntakeLaw s) : IntakeLaw (completeAnalysis s) := by
  unfold completeAnalysis
  split
  · next a d rest _ hqueue =>
    have hne : s.echo.queue ≠ [] := by simp [hqueue]
    split
    · exact intakeLaw_finishAnalysis _ hne h
    · split
      · exact intakeLaw_finishAnalysis _ hne h
      · exact intakeLaw_finishAnalysis _ (by exact hne) (by exact h)
  · exact h

/-- Counters at 0 and an empty queue. -/
theorem intakeLaw_of_zero {s : State} (hcounters : s.echo.counters = zeroCounters) (hqueue : s.echo.queue = []) :
    IntakeLaw s := by
  simp [IntakeLaw, hcounters, hqueue, zeroCounters]

theorem exec_keeps_intakeLaw {c : Instr} {s t : State} (hm : touchesAny [.intake] c = true) (h : IntakeLaw s)
    (hc : exec c s = .next t) : IntakeLaw t := by
  cases c
  case powerOn => cases hc; exact intakeLaw_of_zero rfl rfl
  case pinReset => cases hc; exact intakeLaw_of_zero rfl rfl
  case burstDesc f =>
    refine inTurn_keeps hc h ?_
    unfold receiveDescriptor
    dsimp only
    split
    · split
      · exact intakeLaw_offerDescriptor f (by exact h)
      · exact h
    · exact h
  case analysisCompletion => exact inTurn_keeps hc h (intakeLaw_completeAnalysis h)
  case resetEngines =>
    exact runRequest_keeps hc h (fun _ => h) fun _ => noBody_keeps h (intakeLaw_of_zero rfl rfl)
  case resetAll =>
    exact runRequest_keeps hc h (fun _ => h) fun _ => noBody_keeps h (intakeLaw_of_zero rfl rfl)
  all_goals cases hm

/-- Settles O51: an accepted descriptor is queued, and one that leaves the queue is counted once. -/
theorem stepKeepsIntakeLaw : Obligations.StepKeepsIntakeLaw := fun _ _ hs hstep =>
  dependsOn_intakeLaw.step (fun _ _ _ => exec_keeps_intakeLaw) hs hstep

end Sys2Proof.Machine
end

section
/-! What a move of the search makes of its record and log, of the tally's flags and of the report queue, said once; and the
commands that can move the search. -/

namespace Sys2Proof.Machine

/-- A move of the search: the search goes on with its number, or it has ended and its number stands last in the log (R140,
R142); no more than coincident flags of the tally is set (R62); what the report queue gains it gains by events. -/
structure SearchMove (s t : State) : Prop where
  next : t.search.nextNumber = s.search.nextNumber
  moved : (t.search.log = s.search.log ∧ t.search.record.map (·.number) = s.search.record.map (·.number))
    ∨ ∃ r x, s.search.record.map (·.number) = some r ∧ x.number = r ∧ t.search.record = none
        ∧ t.search.log = logResult s.search.log x
  flags : t.tally.records = s.tally.records ∨ ∃ table head, t.tally.records = markCoincident table head s.tally.records
  events : ∃ evs : List Event, t.reports = evs.foldl raiseEvent s.reports

theorem SearchMove.same {s t : State} (hsearch : t.search = s.search := by rfl)
    (hrecords : t.tally.records = s.tally.records := by rfl)
    (hevents : ∃ evs : List Event, t.reports = evs.foldl raiseEvent s.reports := by exact ⟨[], rfl⟩) : SearchMove s t :=
  ⟨by rw [hsearch], .inl ⟨by rw [hsearch], by rw [hsearch]⟩, .inl hrecords, hevents⟩

/-- A move of the search after a change that leaves the search and the tally alone and at most raises events. -/
theorem SearchMove.after {s u t : State} (h : SearchMove u t) (hsearch : u.search = s.search := by rfl)
    (hrecords : u.tally.records = s.tally.records := by rfl)
    (hevents : ∃ evs : List Event, u.reports = evs.foldl raiseEvent s.reports := by exact ⟨[], rfl⟩) : SearchMove s t := by
  obtain ⟨hnext, hmoved, hflags, later, hlater⟩ := h
  obtain ⟨earlier, hearlier⟩ := hevents
  rw [hsearch] at hnext hmoved
  rw [hrecords] at hflags
  exact ⟨hnext, hmoved, hflags, earlier ++ later, by rw [hlater, hearlier, List.foldl_append]⟩

/-- Going on with a record of the same number. -/
theorem searchMove_setSearch {r x : SearchRecord} {s : State} (hr : s.search.record = some r) (hn : x.number = r.number) :
    SearchMove s (setSearch x s) :=
  ⟨rfl, .inl ⟨rfl, by simp [search_setSearch, hr, hn]⟩, .inl rfl, [], rfl⟩

/-- The end of a search whose record has the same number. -/
theorem searchMove_endSearch {r x : SearchRecord} {s : State} (o : SearchOutcome) (head : Nat)
    (hr : s.search.record = some r) (hn : x.number = r.number) : SearchMove s (endSearch x o head s) := by
  refine ⟨rfl, .inr ⟨r.number, _, by rw [hr]; rfl, hn, rfl, rfl⟩, ?_, [.searchEnd x.number o], rfl⟩
  by_cases ho : o = .localized ∨ o = .split
  · exact .inr ⟨s.map.elements, head, if_pos ho⟩
  · exact .inl (if_neg ho)

theorem SearchMove.post {s t : State} (h : SearchMove s t) (a : Nat) (c : TlmCommand) : SearchMove s (post a c t) :=
  ⟨h.next, h.moved, h.flags, h.events⟩

theorem searchMove_postRelease {r x : SearchRecord} {s : State} (st : RunState) (hr : s.search.record = some r)
    (hn : x.number = r.number) : SearchMove s (postRelease x st s) :=
  (searchMove_setSearch (x := { x with state := st, measureDeadline := none }) hr hn).post _ _

/-- The record that a search comes to. -/
def Progress.record : Progress → SearchRecord
  | .running r => r
  | .ended r _ _ => r

theorem searchMove_settle {r : SearchRecord} {p : Progress} {s : State} (hr : s.search.record = some r)
    (hn : p.record.number = r.number) : SearchMove s (settle p s) := by
  cases p with
  | running x => exact searchMove_setSearch hr hn
  | ended x o head => exact searchMove_endSearch o head hr hn

/-- Taking up legs leaves the number. -/
theorem takeUp_number (t : Table Element) (entries : Table TrackEntry) (n : Nat) (r : SearchRecord) :
    (takeUp t entries n r).record.number = r.number := by
  induction n generalizing r with
  | zero => rfl
  | succ n ih =>
    unfold takeUp
    split
    · split
      · exact ih _
      · rfl
    · split
      · rfl
      · rfl
      · dsimp only
        split
        · rfl
        · exact ih _

theorem searchMove_nextLeg {r x : SearchRecord} {s : State} (hr : s.search.record = some r) (hn : x.number = r.number) :
    SearchMove s (nextLeg x s) := searchMove_settle hr ((takeUp_number _ _ _ _).trans hn)

theorem discardMeasure_number (r : SearchRecord) : (discardMeasure r).number = r.number := by
  unfold discardMeasure
  split <;> rfl

theorem searchMove_fixCause (cause : SearchOutcome) (s : State) : SearchMove s (fixCause cause s) := by
  unfold fixCause
  split
  · exact .same
  · next r hr =>
    dsimp only
    split
    · exact .same
    · exact searchMove_endSearch _ _ hr rfl
    · split
      · exact .after (searchMove_endSearch (s := withdraw s) _ _ hr rfl)
      · exact searchMove_setSearch hr rfl
    · exact searchMove_postRelease _ hr rfl
    · exact searchMove_postRelease _ hr (discardMeasure_number _)
    · exact searchMove_setSearch hr rfl
    · exact searchMove_setSearch hr rfl

theorem searchMove_searchNotice (peak : Int) (cleared : Bool) (s : State) : SearchMove s (searchNotice peak cleared s) := by
  unfold searchNotice
  split
  · exact .same
  · next r hr =>
    split
    · exact searchMove_fixCause _ s
    · split
      · unfold collectBaseline
        dsimp only
        split
        · refine (searchMove_setSearch hr ?_).post _ _; rfl
        · exact searchMove_setSearch hr rfl
      · unfold passSettle
        split <;> exact searchMove_setSearch hr rfl
      · unfold collectMeasure
        dsimp only
        split
        · exact searchMove_postRelease _ hr rfl
        · exact searchMove_setSearch hr rfl
      all_goals exact .same

theorem searchMove_searchOutcome (tx : Transaction) (reply : Option Reply) (s : State) :
    SearchMove s (searchOutcome tx reply s) := by
  unfold searchOutcome
  split
  · exact .same
  · next r hr =>
    split
    · exact .same
    · split
      · unfold stepAcknowledged
        dsimp only
        split <;> exact searchMove_setSearch hr rfl
      · exact searchMove_postRelease _ hr rfl
      · exact searchMove_nextLeg hr rfl
      · exact searchMove_setSearch hr rfl
      · exact searchMove_postRelease _ hr rfl
      · exact searchMove_endSearch _ _ hr rfl
      · exact .same

theorem searchMove_searchLapse (address : Nat) (s : State) : SearchMove s (searchLapse address s) := by
  unfold searchLapse
  split
  · exact .same
  · next r hr =>
    split
    · exact .same
    · split
      · exact .after (searchMove_nextLeg (s := withdraw s) hr rfl)
      · exact searchMove_nextLeg hr rfl
      · exact searchMove_endSearch _ _ hr rfl
      all_goals exact .same

theorem searchMove_handOff (sweep : Nat) (levels : List Level) (s : State) : SearchMove s (handOff sweep levels s) := by
  unfold handOff
  dsimp only
  split
  · exact .after (searchMove_searchNotice _ _ _) rfl rfl ⟨_, rfl⟩
  · exact .same rfl rfl ⟨_, rfl⟩

theorem searchMove_receiveSegment (f : Sys2Proof.Frame) (s : State) : SearchMove s (receiveSegment f s) := by
  unfold receiveSegment
  split
  · obtain ⟨w, -, htaken | ⟨n, levels, htaken⟩⟩ := takeSegment_cases f (arrive .nodeSide f false s)
    · rw [htaken]; exact .same
    · rw [htaken]; exact .after (searchMove_handOff n levels _)
  · exact .same

theorem searchMove_loseLock (which : Lane) (cursor : Nat) (signal : Bool) (s : State) :
    SearchMove s (loseLock which cursor signal s) := by
  unfold loseLock tellLockLost
  dsimp only
  split
  · exact .after (searchMove_fixCause _ _)
  · exact .same

theorem searchMove_answerHead (code : Completion) (body : Body) (s : State) : SearchMove s (answerHead code body s) := by
  unfold answerHead
  split <;> exact .same

theorem searchMove_endTransaction (tx : Transaction) (reply : Option Reply) (s : State) :
    SearchMove s (endTransaction tx reply s) := by
  unfold endTransaction
  dsimp only
  split
  · exact .after (searchMove_searchOutcome _ _ _)
  · exact .after (searchMove_answerHead _ _ _)

theorem searchMove_examineReply (f : List Byte) (s : State) : SearchMove s (examineReply f s) := by
  unfold examineReply
  dsimp only
  split
  · exact .after (searchMove_endTransaction _ _ _)
  · exact .same

theorem searchMove_lapse (address : Nat) (s : State) : SearchMove s (lapse address s) := by
  unfold lapse
  split
  · exact .same
  · split
    · exact .same
    · split
      · dsimp only
        split
        · exact .after (searchMove_searchLapse _ _)
        · exact .same
      · exact .same

theorem searchMove_measureExpiry (s : State) : SearchMove s (measureExpiry s) := by
  unfold measureExpiry
  split
  · exact .same
  · next r hr =>
    split
    · exact .same
    · split
      · exact .after (searchMove_postRelease (s := reach _ s) _ hr (discardMeasure_number _))
      · exact .same


/-- A search that runs with the next number, the number after it being the next (R124, R142). -/
def searchBegun (w : RawSearch) (s : State) : State :=
  setSearch (newSearch w s) { s with search := { s.search with nextNumber := numberAfter s.search.nextNumber } }

theorem searchMove_startSearch (w : RawSearch) (s : State) : SearchMove (searchBegun w s) (startSearch w s) := by
  have hnumber := takeUp_number s.map.elements s.tlm.entries searchFuel (newSearch w s)
  unfold startSearch
  generalize takeUp s.map.elements s.tlm.entries searchFuel (newSearch w s) = p at hnumber ⊢
  cases p with
  | running r => exact ⟨rfl, .inl ⟨rfl, congrArg some hnumber⟩, .inl rfl, [], rfl⟩
  | ended r o head =>
    have hend := searchMove_endSearch (s := searchBegun w s) o head rfl hnumber
    exact ⟨hend.next, hend.moved, hend.flags, hend.events⟩

/-! ## The commands that move the search -/

/-- The commands that can move a search that runs. -/
def movesSearch : Instr → Bool
  | .lossOfSignal _ | .invalidHeader _ _ | .spectrumSeg _ | .tlmReplyFrame _ | .byteHeard _ | .tlmWatchdogExpiry
  | .lapseDeadline _ | .measureDeadline | .searchAbort _ => true
  | _ => false

theorem searchMove_inTurn {own : State → State} {s t : State} (h : inTurn own s = .next t) (hown : SearchMove s (own s)) :
    SearchMove s t := inTurn_keeps h .same hown

theorem exec_searchMove {c : Instr} {s t : State} (hm : movesSearch c = true) (h : exec c s = .next t) : SearchMove s t := by
  cases c
  case lossOfSignal lane =>
    refine searchMove_inTurn h ?_
    unfold loseSignal
    dsimp only
    split
    · exact searchMove_loseLock ..
    · exact .same
  case invalidHeader lane f =>
    refine searchMove_inTurn h ?_
    unfold missHeader
    dsimp only
    split
    · split
      · split
        · exact .after (searchMove_loseLock _ _ _ _)
        · exact .same
      · exact .same
    · exact .same
  case spectrumSeg f => exact searchMove_inTurn h (searchMove_receiveSegment f s)
  case tlmReplyFrame f =>
    refine searchMove_inTurn h ?_
    unfold hearFrame
    split
    · exact searchMove_examineReply f s
    · exact .same
  case byteHeard b =>
    refine searchMove_inTurn h ?_
    unfold hearByte
    dsimp only
    split
    · exact .same
    · split
      · exact .same
      · exact searchMove_examineReply _ s
  case tlmWatchdogExpiry =>
    refine searchMove_inTurn h ?_
    unfold watchdogExpiry
    split
    · exact .same
    · exact .after (searchMove_endTransaction _ _ _)
  case lapseDeadline a => exact searchMove_inTurn h (searchMove_lapse a s)
  case measureDeadline => exact searchMove_inTurn h (searchMove_measureExpiry s)
  case searchAbort =>
    refine runRequest_keeps h .same (fun _ => .same) fun _ => noBody_keeps .same ?_
    unfold searchAbortOwn
    split
    · exact .same
    · exact .after (searchMove_fixCause .aborted (answer _ _ _ s))
  all_goals cases hm

/-- A command that moves the search changes besides it the link, the bands and what the telemetry line holds. -/
theorem agree_of_movesSearch {c : Instr} {s t : State} (hm : movesSearch c = true) (h : exec c s = .next t) (p : Part)
    (hp : p ∉ .link :: .bands :: transactionParts) : Agree s t p := by
  have hsub : commandTouches c ⊆ .link :: .bands :: transactionParts := by
    cases c <;> cases hm <;>
      simp [commandTouches, commandChanges, Instr.request, searchParts, transactionParts]
  exact ((exec_confined h).mono hsub).agree p hp

end Sys2Proof.Machine
end

section
/-! The laws of the bands and of the results (O55, O58), and the state that refutes the law of the lanes (O59). -/

namespace Sys2Proof.Machine

/-! ## Bands (R83, R88) -/

theorem dependsOn_bandLaw : DependsOn [.bands] BandLaw := by
  intro s t h hs
  have hbands : t.bands.bands = s.bands.bands := h .bands (by simp)
  intro x hx
  exact hs x (hbands ▸ hx)

/-- A band whose live state is at its reset values. -/
theorem bandLaw_resetLive (b : Band) : bandLaw { entry := b, live := resetLive } := by simp [bandLaw, resetLive]

/-- One sweep raises one run at most to 15 and clears the other. -/
theorem bandLaw_bandAfter (levels : List Level) {x : BandSlot} (h : bandLaw x) : bandLaw (bandAfter levels x) := by
  unfold bandAfter
  split
  · next henabled =>
    simp only [bandLaw, liveAfter, runsAfter, henabled]
    cases classifySweep x.entry (bandLevels x.entry levels) <;> simp [Nat.min_le_left]
  · exact h

theorem bandLaw_transferBand {x : BandSlot} (h : bandLaw x) : bandLaw (transferBand x) := h

theorem bandLaw_setBand (n : Nat) (b : Band) {s : State} (h : BandLaw s) : BandLaw (setBand n b s) := by
  intro x hx
  obtain hold | rfl := List.mem_or_eq_of_mem_set hx
  · exact h x hold
  · exact bandLaw_resetLive b

/-- A change of every band that keeps each one's law. -/
theorem bandLaw_of_map {s t : State} {f : BandSlot → BandSlot} (ht : t.bands.bands = s.bands.bands.map f)
    (hf : ∀ x, bandLaw x → bandLaw (f x)) (h : BandLaw s) : BandLaw t := by
  intro x hx
  rw [ht, List.mem_map] at hx
  obtain ⟨y, hy, rfl⟩ := hx
  exact hf y (h y hy)

/-- A spectrum segment leaves the bands or classifies each of them (R67, R72, R86). -/
theorem receiveSegment_bands (f : Sys2Proof.Frame) (s : State) : (receiveSegment f s).bands.bands = s.bands.bands
    ∨ ∃ levels, (receiveSegment f s).bands.bands = s.bands.bands.map (bandAfter levels) := by
  unfold receiveSegment
  split
  · obtain ⟨w, -, htaken | ⟨n, levels, htaken⟩⟩ := takeSegment_cases f (arrive .nodeSide f false s)
    · exact .inl (by rw [htaken]; rfl)
    · obtain ⟨-, -, -, hbands, -⟩ := handOff_touches n levels { arrive .nodeSide f false s with sweep := w }
      exact .inr ⟨levels, by rw [htaken, hbands]; rfl⟩
  · exact .inl rfl

theorem bandLaw_bandIntervalExpiry {s : State} (h : BandLaw s) : BandLaw (bandIntervalExpiry s) := by
  unfold bandIntervalExpiry
  split
  · exact h
  · exact bandLaw_of_map (f := transferBand) rfl (fun _ => bandLaw_transferBand) h

theorem bandLaw_resetBands {s : State} (h : s.bands.bands = resetBands) : BandLaw s := by
  intro x hx
  rw [h] at hx
  obtain rfl := List.eq_of_mem_replicate hx
  exact bandLaw_resetLive resetBand

theorem bandLaw_loadGood {s : State} (l : List ImageRecord) (h : BandLaw s) : BandLaw (loadGood l s) := by
  have hsettings := dependsOn_bandLaw.keeps (confined_loadSettings l s) (by decide) h
  have hentries : BandLaw (loadEntries l (loadSettings l s)) := loadEntries_keeps
    (fun t _ _ _ _ ht => dependsOn_bandLaw.keeps (confined_setChannel _ _ t) (by decide) ht)
    (fun _ _ _ _ _ ht => bandLaw_setBand _ _ ht)
    (fun t _ _ _ ht => dependsOn_bandLaw.keeps (confined_setCorrections _ _ t) (by decide) ht)
    (fun t _ _ _ _ ht => dependsOn_bandLaw.keeps (confined_setAlarm _ _ t) (by decide) ht) hsettings
  have hslots := dependsOn_bandLaw.keeps (confined_loadSlots l _) (by decide) hentries
  have helements := dependsOn_bandLaw.keeps (confined_loadElements l _) (by decide) hslots
  have hmap := dependsOn_bandLaw.keeps (confined_loadMap l _) (by decide) helements
  exact dependsOn_bandLaw.keeps (confined_setStatus .loaded _) (by decide) hmap

theorem exec_keeps_bandLaw {c : Instr} {s t : State} (hm : touchesAny [.bands] c = true) (h : BandLaw s)
    (hc : exec c s = .next t) : BandLaw t := by
  cases c
  case powerOn => cases hc; exact bandLaw_resetBands rfl
  case pinReset => cases hc; exact bandLaw_resetBands rfl
  case spectrumSeg f =>
    refine inTurn_keeps hc h ?_
    obtain hsame | ⟨levels, hmap⟩ := receiveSegment_bands f s
    · exact fun x hx => h x (hsame ▸ hx)
    · exact bandLaw_of_map hmap (fun _ => bandLaw_bandAfter levels) h
  case bandIntervalExpiry => exact inTurn_keeps hc h (bandLaw_bandIntervalExpiry h)
  case tableWriteBand =>
    refine runRequest_keeps hc h (fun _ => h) fun _ => withBody_keeps _ h fun w => ?_
    unfold tableWriteBandOwn
    split
    · split
      · split
        · exact h
        · exact bandLaw_setBand _ _ h
      · exact h
    · exact h
  case counterSnapshot =>
    refine runRequest_keeps hc h (fun _ => h) fun _ => noBody_keeps h ?_
    unfold counterSnapshotOwn
    split
    · exact h
    · exact bandLaw_of_map (f := transferBand) rfl (fun _ => bandLaw_transferBand) h
  case imageLoadCompletion =>
    exact inTurn_keeps hc h (dependsOn_bandLaw.completeLoad (by decide) h fun _ => bandLaw_loadGood _ h)
  case resetEngines =>
    exact runRequest_keeps hc h (fun _ => h) fun _ => noBody_keeps h
      (bandLaw_of_map (f := fun x => { x with live := resetLive }) rfl (fun x _ => bandLaw_resetLive x.entry) h)
  case resetAll => exact runRequest_keeps hc h (fun _ => h) fun _ => noBody_keeps h (bandLaw_resetBands rfl)
  all_goals cases hm

/-- Settles O55: a sweep clears one of the runs, and a write of a band resets its live state. -/
theorem stepKeepsBandLaw : Obligations.StepKeepsBandLaw := fun _ _ hs hstep =>
  dependsOn_bandLaw.step (fun _ _ _ => exec_keeps_bandLaw) hs hstep

/-! ## Results (R142) -/

theorem dependsOn_resultLaw : DependsOn [.search] ResultLaw := by
  intro s t h
  have hsearch : t.search = s.search := h .search (by simp)
  simp [ResultLaw, resultNumbers, hsearch]

/-- A part of a run of numbers, from some number on, is a run too. -/
theorem consecutive_of_append {l m : List Nat} (h : consecutive (l ++ m)) : consecutive m := by
  induction l with
  | nil => exact h
  | cons a l ih =>
    refine ih ?_
    cases hl : l ++ m with
    | nil => trivial
    | cons b rest => rw [List.cons_append, hl] at h; exact h.2

/-- The number after the last one continues a run. -/
theorem consecutive_concat {l : List Nat} {n : Nat} (h : consecutive (l ++ [n])) :
    consecutive (l ++ [n] ++ [numberAfter n]) := by
  induction l with
  | nil => exact ⟨rfl, trivial⟩
  | cons a l ih =>
    cases l with
    | nil => exact ⟨h.1, rfl, trivial⟩
    | cons b rest => exact ⟨h.1, ih h.2⟩

theorem numberAfter_range (n : Nat) : 1 ≤ numberAfter n ∧ numberAfter n ≤ 65535 := by
  unfold numberAfter
  split <;> omega

/-- Numbers that are consecutive and in range (R142). -/
def NumbersOk (l : List Nat) : Prop := consecutive l ∧ ∀ n ∈ l, 1 ≤ n ∧ n ≤ 65535

theorem NumbersOk.suffix {l m : List Nat} (h : NumbersOk (l ++ m)) : NumbersOk m :=
  ⟨consecutive_of_append h.1, fun n hn => h.2 n (List.mem_append_right l hn)⟩

theorem NumbersOk.concat {l : List Nat} {n : Nat} (h : NumbersOk (l ++ [n])) : NumbersOk (l ++ [n] ++ [numberAfter n]) := by
  refine ⟨consecutive_concat h.1, fun m hm => ?_⟩
  obtain hold | hnew := List.mem_append.mp hm
  · exact h.2 m hold
  · rw [List.mem_singleton.mp hnew]; exact numberAfter_range n

theorem resultLaw_iff (s : State) : ResultLaw s ↔ NumbersOk (resultNumbers s) := Iff.rfl

theorem SearchMove.resultLaw {s t : State} (h : SearchMove s t) (hs : ResultLaw s) : ResultLaw t := by
  rw [resultLaw_iff] at hs ⊢
  obtain ⟨hnext, ⟨hlog, hrecord⟩ | ⟨r, x, hr, hx, hnone, hlog⟩, -, -⟩ := h
  · simpa only [resultNumbers, hlog, hrecord, hnext] using hs
  · have hnumbers : resultNumbers t = (s.search.log.drop (s.search.log.length - 7)).map (·.number) ++ [r] ++ [s.search.nextNumber] := by
      simp [resultNumbers, hlog, hnone, hnext, logResult, hx]
    have hold : resultNumbers s = (s.search.log.take (s.search.log.length - 7)).map (·.number)
        ++ ((s.search.log.drop (s.search.log.length - 7)).map (·.number) ++ [r] ++ [s.search.nextNumber]) := by
      simp only [resultNumbers, hr, Option.toList_some, ← List.append_assoc, ← List.map_append, List.take_append_drop]
    rw [hnumbers]
    exact NumbersOk.suffix (hold ▸ hs)

/-- A search that starts takes the next number, and the one after it is the next (R124, R142). -/
theorem resultLaw_startSearch (w : RawSearch) {s : State} (hidle : s.search.record = none) (h : ResultLaw s) :
    ResultLaw (startSearch w s) := by
  refine (searchMove_startSearch w s).resultLaw ?_
  rw [resultLaw_iff] at h ⊢
  have hbegun : resultNumbers (searchBegun w s)
      = s.search.log.map (·.number) ++ [s.search.nextNumber] ++ [numberAfter s.search.nextNumber] := rfl
  have hold : resultNumbers s = s.search.log.map (·.number) ++ [s.search.nextNumber] := by simp [resultNumbers, hidle]
  rw [hbegun]
  exact (hold ▸ h).concat

/-- A search may start only while none runs (R124). -/
theorem record_none_of_searchRefusal {w : RawSearch} {s : State} (h : searchRefusal w s = none) : s.search.record = none := by
  cases hr : s.search.record with
  | none => rfl
  | some r =>
    unfold searchRefusal at h
    split at h
    · cases h
    · split at h
      · cases h
      · split at h
        · cases h
        · simp [hr] at h

theorem resultLaw_resetSearch {s : State} (h : s.search = resetSearch) : ResultLaw s := by
  simp [ResultLaw, resultNumbers, h, resetSearch, consecutive]

theorem exec_keeps_resultLaw {c : Instr} {s t : State} (hm : touchesAny [.search] c = true) (h : ResultLaw s)
    (hc : exec c s = .next t) : ResultLaw t := by
  cases hs : movesSearch c with
  | true => exact (exec_searchMove hs hc).resultLaw h
  | false =>
    have hothers : (touchesAny [.search] c && !movesSearch c) = true := by rw [hm, hs]; rfl
    cases c
    case powerOn => cases hc; exact resultLaw_resetSearch rfl
    case pinReset => cases hc; exact resultLaw_resetSearch rfl
    case searchStart =>
      refine runRequest_keeps hc h (fun _ => h) fun _ => withBody_keeps _ h fun w => ?_
      unfold searchStartOwn
      split
      · exact h
      · next hnone => exact resultLaw_startSearch w (record_none_of_searchRefusal hnone) (by exact h)
    case resetEngines =>
      exact runRequest_keeps hc h (fun _ => h) fun _ => noBody_keeps h (resultLaw_resetSearch rfl)
    case resetAll => exact runRequest_keeps hc h (fun _ => h) fun _ => noBody_keeps h (resultLaw_resetSearch rfl)
    all_goals cases hothers

/-- Settles O58: a search keeps its number until its result carries it into the log. -/
theorem stepKeepsResultLaw : Obligations.StepKeepsResultLaw := fun _ _ hs hstep =>
  dependsOn_resultLaw.step (fun _ _ _ => exec_keeps_resultLaw) hs hstep

/-! ## A hunt that a signal's return resumes in the past (R151) -/

/-- A node-side lane without its signal whose hunt still expects a header at byte 0, at byte time 10. -/
def staleHunt : State :=
  let s := State.powerOn 0 blankFlash [.signalReturn .nodeSide]
  { s with link := { s.link with
    byteTime := 10
    node := { powerOnLane with lock := .hunting 1 (some 0), signal := false }
    hub := { powerOnLane with cursor := 10 } } }

theorem laneLaw_staleHunt : LaneLaw staleHunt := by
  simp [LaneLaw, laneLaw, staleHunt, State.powerOn, powerOnLink, powerOnLane]

theorem linkLaw_staleHunt : LinkLaw staleHunt := by
  simp [LinkLaw, laneTimes, laneDue, testedAt, occupancy, storeOccupancy, hubLeaving, nodeLeaving, waitingBytes, arriving,
    insertionRest, fillRest, staleHunt, State.powerOn, powerOnLink, powerOnLane]

/-- The signal's return makes the header at byte 0 the lane's next event. -/
theorem step_staleHunt : ∃ t, step staleHunt = .next t ∧ laneDue t.link.node = some 0 ∧ t.link.byteTime = 10 :=
  ⟨_, rfl, rfl, rfl⟩

/-- Refutes O59: LaneLaw lets a lane without its signal keep a run of valid headers, whose expected byte position the
signal's return makes due although the byte time has passed it. No run from reset reaches such a lane, as the loss of the
signal sets the run to 0. -/
theorem not_stepKeepsLaneLaw : ¬ Obligations.StepKeepsLaneLaw := by
  intro h
  obtain ⟨t, hstep, hdue, hnow⟩ := step_staleHunt
  obtain ⟨-, ⟨-, -, ⟨hlater, -⟩, -⟩, -⟩ := h staleHunt t laneLaw_staleHunt linkLaw_staleHunt hstep
  exact absurd (hlater 0 hdue) (by rw [hnow]; decide)

end Sys2Proof.Machine
end

section
/-! The law of the tally (O56): votes, aging, evaluation, the removal of a voter and the flags keep it. -/

namespace Sys2Proof.Machine

/-! ## A key of the records of a table -/

/-- Elements of a list whose images are all different and agree are the same. -/
theorem eq_of_nodup_map {α β : Type} {f : α → β} {l : List α} (h : (l.map f).Nodup) {x y : α} (hx : x ∈ l) (hy : y ∈ l)
    (heq : f x = f y) : x = y := by
  induction l with
  | nil => cases hx
  | cons z rest ih =>
    obtain ⟨hz, hrest⟩ := List.nodup_cons.mp h
    obtain hxz | hx := List.mem_cons.mp hx <;> obtain hyz | hy := List.mem_cons.mp hy
    · exact hxz.trans hyz.symm
    · exact absurd (List.mem_map.mpr ⟨y, hy, heq.symm.trans (congrArg f hxz)⟩) hz
    · exact absurd (List.mem_map.mpr ⟨x, hx, heq.trans (congrArg f hyz)⟩) hz
    · exact ih hrest hx hy

/-- In a list without repeats a key tells the elements apart when no two of them share it. -/
theorem nodup_map_iff_of_nodup {α β : Type} {f : α → β} {l : List α} (h : l.Nodup) :
    (l.map f).Nodup ↔ ∀ x ∈ l, ∀ y ∈ l, f x = f y → x = y :=
  ⟨fun hmap _ hx _ hy heq => eq_of_nodup_map hmap hx hy heq, fun hinj =>
    List.pairwise_map.mpr (List.Pairwise.imp_of_mem (fun ha hb hne heq => hne (hinj _ ha _ hb heq)) h)⟩

/-- A table in canonical form holds no entry twice. -/
theorem nodup_of_tableOk {α : Type} {bound : Nat} {t : Table α} (h : tableOk bound t = true) : t.Nodup :=
  ((tableOk_iff bound t).mp h).1.imp fun {p q} (hlt : p.1 < q.1) (heq : p = q) => Nat.lt_irrefl _ (heq ▸ hlt)

/-- In a table in canonical form the entry under a number just written is the one written. -/
theorem eq_of_mem_tableSet {α : Type} {bound : Nat} {t : Table α} {k : Nat} {v : α} (hk : k < bound)
    (h : tableOk bound t = true) {p : Nat × α} (hp : p ∈ tableSet t k v) (hpk : p.1 = k) : p = (k, v) := by
  have hget := tableGet_of_mem (tableOk_tableSet v hk h) hp
  rw [hpk, tableGet_tableSet_same] at hget
  exact Prod.ext hpk (Option.some.inj hget).symm

/-- A key that no two entries share is shared by none after a write whose key no other entry has. -/
theorem nodup_map_tableSet {α β : Type} {bound : Nat} {t : Table α} {k : Nat} {v : α} (g : Nat × α → β) (hk : k < bound)
    (h : tableOk bound t = true) (hkeys : (t.map g).Nodup) (hnew : ∀ p ∈ t, p.1 ≠ k → g p ≠ g (k, v)) :
    ((tableSet t k v).map g).Nodup := by
  rw [nodup_map_iff_of_nodup (nodup_of_tableOk h)] at hkeys
  have hset := tableOk_tableSet v hk h
  rw [nodup_map_iff_of_nodup (nodup_of_tableOk hset)]
  have other {p : Nat × α} (hp : p ∈ tableSet t k v) : p = (k, v) ∨ (p ∈ t ∧ p.1 ≠ k) := by
    by_cases hpk : p.1 = k
    · exact .inl (eq_of_mem_tableSet hk h hp hpk)
    · exact (mem_tableSet hp).elim .inl fun hold => .inr ⟨hold, hpk⟩
  intro p hp q hq heq
  obtain rfl | ⟨hpt, hpk⟩ := other hp <;> obtain rfl | ⟨hqt, hqk⟩ := other hq
  · rfl
  · exact absurd heq.symm (hnew q hqt hqk)
  · exact absurd heq (hnew p hpt hpk)
  · exact hkeys p hpt q hqt heq

/-! ## The records of a lawful tally -/

/-- The key of a record (R49). -/
def keyOf (p : Nat × TallyRecord) : Key := (p.2.element, p.2.place)

/-- What TallyLaw asks of the records under a promote threshold. -/
structure RecordsOk (promote : Nat) (records : Table TallyRecord) : Prop where
  table : tableOk 256 records = true
  keys : (records.map keyOf).Nodup
  law : ∀ p ∈ records, recordLaw promote p.2

theorem tallyLaw_iff (s : State) : TallyLaw s ↔ RecordsOk s.mgmt.settings.promote s.tally.records :=
  ⟨fun ⟨htable, hkeys, hlaw⟩ => ⟨htable, hkeys, hlaw⟩, fun h => ⟨h.table, h.keys, h.law⟩⟩

theorem recordsOk_nil (promote : Nat) : RecordsOk promote [] := ⟨rfl, List.nodup_nil, fun _ hp => nomatch hp⟩

/-- A change of every record that keeps its key and gives it the law of a promote threshold. -/
theorem RecordsOk.map {promote promote' : Nat} {records : Table TallyRecord} {f : TallyRecord → TallyRecord}
    (h : RecordsOk promote records) (hkey : ∀ r, (f r).element = r.element ∧ (f r).place = r.place)
    (hlaw : ∀ r, recordLaw promote r → recordLaw promote' (f r)) :
    RecordsOk promote' (records.map (fun p => (p.1, f p.2))) := by
  refine ⟨tableOk_map _ (fun _ => rfl) h.table, ?_, fun p hp => ?_⟩
  · have hsame : (records.map (fun p => (p.1, f p.2))).map keyOf = records.map keyOf := by
      rw [List.map_map]
      exact List.map_congr_left fun p _ => Prod.ext (hkey p.2).1 (hkey p.2).2
    rw [hsame]
    exact h.keys
  · obtain ⟨q, hq, rfl⟩ := List.mem_map.mp hp
    exact hlaw q.2 (h.law q hq)

/-- Writing a lawful record whose key no record of another slot has. -/
theorem RecordsOk.tableSet {promote : Nat} {records : Table TallyRecord} {slot : Nat} {r : TallyRecord}
    (h : RecordsOk promote records) (hslot : slot < 256) (hr : recordLaw promote r)
    (hnew : ∀ p ∈ records, p.1 ≠ slot → keyOf p ≠ keyOf (slot, r)) :
    RecordsOk promote (tableSet records slot r) :=
  ⟨tableOk_tableSet r hslot h.table, nodup_map_tableSet keyOf hslot h.table h.keys hnew,
    fun p hp => (mem_tableSet hp).elim (fun heq => heq ▸ hr) (h.law p)⟩

/-- The slots of a lawful table lie below 256. -/
theorem RecordsOk.slot_lt {promote : Nat} {records : Table TallyRecord} (h : RecordsOk promote records) {p : Nat × TallyRecord}
    (hp : p ∈ records) : p.1 < 256 := ((tableOk_iff 256 records).mp h.table).2 p hp

/-! ## Evaluation, removal, aging and flags -/

theorem recordsOk_evaluateRecords {promote promote' : Nat} {records : Table TallyRecord} (h : RecordsOk promote records) :
    RecordsOk promote' (evaluateRecords promote' some records).1 := by
  rw [evaluateRecords_some]
  refine h.map (f := fun r => { r with state := stateFor promote' r.voters }) (fun _ => ⟨rfl, rfl⟩) fun r hr => ?_
  obtain ⟨hvotes, hmost, hlength, hnodup, -⟩ := hr
  exact ⟨hvotes, hmost, hlength, hnodup, rfl⟩

theorem tallyLaw_removeVoter (i : Nat) {s : State} (h : TallyLaw s) : TallyLaw (removeVoter i s) := by
  rw [tallyLaw_iff] at h ⊢
  show RecordsOk s.mgmt.settings.promote (evaluateRecords _ _ s.tally.records).1
  rw [evaluateRecords_remove]
  refine h.map (f := fun r => if i ∈ r.voters then
    { r with voters := r.voters.filter (fun v => v != i)
             state := stateFor s.mgmt.settings.promote (r.voters.filter (fun v => v != i)) } else r)
    (fun r => by split <;> exact ⟨rfl, rfl⟩) fun r hr => ?_
  split
  · obtain ⟨hvotes, hmost, hlength, hnodup, -⟩ := hr
    exact ⟨hvotes, hmost, Nat.le_trans (List.length_filter_le ..) hlength, hnodup.filter _, rfl⟩
  · exact hr

theorem recordsOk_ageRecords {promote : Nat} {records : Table TallyRecord} (h : RecordsOk promote records) :
    RecordsOk promote (ageRecords records) := by
  refine ⟨tableOk_filter _ (tableOk_tableMap _ h.table), ?_, fun p hp => ?_⟩
  · have hkeys : (tableMap records (fun r => { r with votes := r.votes / 2 })).map keyOf = records.map keyOf := by
      rw [tableMap, List.map_map]; rfl
    exact List.Nodup.sublist (List.Sublist.map _ List.filter_sublist) (hkeys ▸ h.keys)
  · obtain ⟨hp, hvotes⟩ := List.mem_filter.mp hp
    obtain ⟨q, hq, rfl⟩ := List.mem_map.mp hp
    obtain ⟨-, hmost, hlength, hnodup, hstate⟩ := h.law q hq
    refine ⟨Nat.one_le_iff_ne_zero.mpr (by simpa using hvotes), ?_, hlength, hnodup, hstate⟩
    exact Nat.le_trans (Nat.div_le_self ..) hmost

theorem recordsOk_markCoincident {promote : Nat} {records : Table TallyRecord} (t : Table Element) (head : Nat)
    (h : RecordsOk promote records) : RecordsOk promote (markCoincident t head records) :=
  h.map (f := fun r => if inSection t head r then { r with coincident := true } else r)
    (fun r => by split <;> exact ⟨rfl, rfl⟩) fun r hr => by split <;> exact hr

/-! ## Votes -/

theorem findKey_eq_none_iff {records : Table TallyRecord} {k : Key} : findKey records k = none ↔ ∀ p ∈ records, keyOf p ≠ k := by
  simp [findKey, List.find?_eq_none, keyOf, Prod.ext_iff]

theorem mem_of_findKey {records : Table TallyRecord} {k : Key} {p : Nat × TallyRecord} (h : findKey records k = some p) :
    p ∈ records ∧ keyOf p = k := by
  refine ⟨List.mem_of_find?_eq_some h, ?_⟩
  have hp := List.find?_some h
  simp only [Bool.and_eq_true, beq_iff_eq] at hp
  exact Prod.ext hp.1 hp.2

theorem victim_mem {records : Table TallyRecord} {touched : List Nat} {p : Nat × TallyRecord}
    (h : victim records touched = some p) : p ∈ records := by
  have hfold : ∀ (l : List (Nat × TallyRecord)) (best : Option (Nat × TallyRecord)),
      (∀ b ∈ best, b ∈ records) → (∀ q ∈ l, q ∈ records) →
      ∀ b ∈ l.foldl (fun best q => match best with
        | none => some q
        | some b => if lexLess (victimKey q.2) (victimKey b.2) then some q else some b) best, b ∈ records := by
    intro l
    induction l with
    | nil => intro best hb _; exact hb
    | cons q l ih =>
      intro best hb hl
      refine ih _ ?_ (fun x hx => hl x (List.mem_cons_of_mem _ hx))
      have hq := hl q (List.mem_cons_self ..)
      intro b hbest
      cases best with
      | none => cases hbest; exact hq
      | some old =>
        dsimp only at hbest
        split at hbest <;> cases hbest
        · exact hq
        · exact hb b rfl
  exact hfold _ none (fun _ hb => nomatch hb) (fun q hq => (List.mem_filter.mp hq).1) p h

theorem recordLaw_newRecord (b : Ballot) (k : Key) : recordLaw b.promote (evaluate b.promote (newRecord b k)).1 := by
  simp [recordLaw, evaluate, newRecord]

theorem RecordsOk.createIn {b : Ballot} {k : Key} {slot : Nat} {p : Poll} (h : RecordsOk b.promote p.tally.records)
    (hnew : findKey p.tally.records k = none) (hslot : slot < 256) :
    RecordsOk b.promote (createIn b k slot p).tally.records :=
  h.tableSet hslot (recordLaw_newRecord b k) fun q hq _ => findKey_eq_none_iff.mp hnew q hq

/-- A vote's record has at least one and at most eight voters, none twice, and the state of R50. -/
theorem recordLaw_votedFor {b : Ballot} {slot : Nat} {r : TallyRecord} {p : Poll} (hr : recordLaw b.promote r) :
    ∃ r', (voteFor b slot r p).tally.records = tableSet p.tally.records slot r' ∧ recordLaw b.promote r'
      ∧ r'.element = r.element ∧ r'.place = r.place := by
  refine ⟨_, rfl, ?_, ?_⟩
  · obtain ⟨-, -, hlength, hnodup, hstate⟩ := hr
    have hvotes : 1 ≤ bump r.votes ∧ bump r.votes ≤ 65535 := by unfold bump; omega
    by_cases hfull : (r.voters.contains b.index || decide (8 ≤ r.voters.length)) = true
    · simp only [hfull, if_true]
      exact ⟨hvotes.1, hvotes.2, hlength, hnodup, hstate⟩
    · have hgrown : r.voters ++ [b.index] ≠ r.voters := by simp
      simp only [hfull, Bool.false_eq_true, if_false, if_neg hgrown]
      simp only [Bool.or_eq_true, List.contains_iff_mem, decide_eq_true_eq, not_or, Nat.not_le] at hfull
      refine ⟨hvotes.1, hvotes.2, ?_, ?_, rfl⟩
      · simp only [evaluate, List.length_append, List.length_singleton]; omega
      · exact List.nodup_append.mpr ⟨hnodup, List.pairwise_singleton _ _, fun x hx y hy => by
          rw [List.mem_singleton.mp hy]; rintro rfl; exact hfull.1 hx⟩
  · split <;> split <;> exact ⟨rfl, rfl⟩

theorem RecordsOk.voteFor {b : Ballot} {slot : Nat} {r : TallyRecord} {p : Poll} (h : RecordsOk b.promote p.tally.records)
    (hmem : (slot, r) ∈ p.tally.records) : RecordsOk b.promote (voteFor b slot r p).tally.records := by
  obtain ⟨r', hrecords, hlaw, helement, hplace⟩ := recordLaw_votedFor (slot := slot) (p := p) (h.law _ hmem)
  rw [hrecords]
  refine h.tableSet (h.slot_lt hmem) hlaw fun q hq hne hkey => hne ?_
  have hsame : keyOf q = keyOf (slot, r) := hkey.trans (Prod.ext helement hplace)
  rw [(nodup_map_iff_of_nodup (nodup_of_tableOk h.table)).mp h.keys q hq _ hmem hsame]

theorem RecordsOk.vote {b : Ballot} {p : Poll} (k : Key) (h : RecordsOk b.promote p.tally.records) :
    RecordsOk b.promote (vote b p k).tally.records := by
  unfold Machine.vote
  split
  · next hfound => exact h.voteFor (mem_of_findKey hfound).1
  · next hnone =>
    split
    · next hfree => exact h.createIn hnone (by have := lowestFree_spec hfree; omega)
    · split
      · next hvictim => exact RecordsOk.createIn (by exact h) hnone (h.slot_lt (victim_mem hvictim))
      · exact h

theorem tallyLaw_castVotes {b : Ballot} (keys : List Key) {s : State} (hpromote : b.promote = s.mgmt.settings.promote)
    (h : TallyLaw s) : TallyLaw (castVotes b keys s) := by
  rw [tallyLaw_iff] at h ⊢
  show RecordsOk s.mgmt.settings.promote (keys.foldl (vote b) _).tally.records
  rw [← hpromote] at h ⊢
  exact List.foldlRecOn (motive := fun p : Poll => RecordsOk b.promote p.tally.records) keys (vote b) h
    fun p hp k _ => hp.vote k

/-! ## The commands -/

theorem dependsOn_tallyLaw : DependsOn [.records, .settings] TallyLaw := by
  intro s t h hs
  have hrecords : t.tally.records = s.tally.records := h .records (by simp)
  have hsettings : t.mgmt.settings = s.mgmt.settings := h .settings (by simp)
  rw [tallyLaw_iff] at hs ⊢
  rwa [hrecords, hsettings]

/-- A move of the search keeps the law of the tally: it sets flags at most. -/
theorem SearchMove.tallyLaw {s t : State} (h : SearchMove s t) (hsettings : t.mgmt.settings = s.mgmt.settings)
    (hs : TallyLaw s) : TallyLaw t := by
  rw [tallyLaw_iff] at hs ⊢
  rw [hsettings]
  obtain hsame | ⟨table, head, hmarked⟩ := h.flags
  · rwa [hsame]
  · rw [hmarked]; exact recordsOk_markCoincident table head hs

theorem tallyLaw_completeAnalysis {s : State} (h : TallyLaw s) : TallyLaw (completeAnalysis s) := by
  unfold completeAnalysis
  split
  · split
    · exact h
    · split
      · exact h
      · exact tallyLaw_castVotes _ rfl h
  · exact h

theorem tallyLaw_applySettings (n : Settings) {s : State} (h : TallyLaw s) : TallyLaw (applySettings n s) := by
  rw [tallyLaw_iff] at h ⊢
  rw [applySettings_mgmt]
  unfold applySettings
  dsimp only
  split
  · next hsame => rw [hsame]; exact h
  · exact recordsOk_evaluateRecords (promote := s.mgmt.settings.promote) h

theorem tallyLaw_of_nil {s : State} (h : s.tally.records = []) : TallyLaw s := by
  rw [tallyLaw_iff, h]
  exact recordsOk_nil _

theorem tallyLaw_loadElements (l : List ImageRecord) {s : State} (h : TallyLaw s) : TallyLaw (loadElements l s) := by
  by_cases hready : s.map.state = .ready
  · exact tallyLaw_of_nil (by simp [loadElements, hready, emptyTally])
  · refine dependsOn_tallyLaw s _ (fun p hp => ?_) h
    simp only [List.mem_cons, List.not_mem_nil, or_false] at hp
    obtain rfl | rfl := hp <;> simp [Agree, loadElements, leaveReady, hready]

theorem tallyLaw_loadGood (l : List ImageRecord) {s : State} (h : TallyLaw s) : TallyLaw (loadGood l s) := by
  have hsettings : TallyLaw (loadSettings l s) := loadSettings_keeps (fun _ _ _ ht => tallyLaw_applySettings _ ht) h
  have hentries := dependsOn_tallyLaw.keeps (confined_loadEntries l _) (by decide) hsettings
  have hslots := dependsOn_tallyLaw.keeps (confined_loadSlots l _) (by decide) hentries
  have hmap := dependsOn_tallyLaw.keeps (confined_loadMap l _) (by decide) (tallyLaw_loadElements l hslots)
  exact dependsOn_tallyLaw.keeps (confined_setStatus .loaded _) (by decide) hmap

theorem exec_keeps_tallyLaw {c : Instr} {s t : State} (hm : touchesAny [.records, .settings] c = true) (h : TallyLaw s)
    (hc : exec c s = .next t) : TallyLaw t := by
  cases hs : movesSearch c with
  | true => exact (exec_searchMove hs hc).tallyLaw (agree_of_movesSearch hs hc .settings (by decide)) h
  | false =>
    have hothers : (touchesAny [.records, .settings] c && !movesSearch c) = true := by rw [hm, hs]; rfl
    cases c
    case powerOn => cases hc; exact tallyLaw_of_nil rfl
    case pinReset => cases hc; exact tallyLaw_of_nil rfl
    case analysisCompletion => exact inTurn_keeps hc h (tallyLaw_completeAnalysis h)
    case agingExpiry =>
      refine inTurn_keeps hc h ?_
      rw [tallyLaw_iff] at h ⊢
      exact recordsOk_ageRecords h
    case tableWriteSettings =>
      refine runRequest_keeps hc h (fun _ => h) fun _ => withBody_keeps _ h fun w => ?_
      unfold tableWriteSettingsOwn
      split
      · exact h
      · exact tallyLaw_applySettings _ h
    case mapOpen =>
      refine runRequest_keeps hc h (fun _ => h) fun _ => noBody_keeps h ?_
      unfold mapOpenOwn
      split
      · exact h
      · split
        · exact h
        · split
          · exact h
          · exact tallyLaw_of_nil rfl
    case attachSet r b =>
      refine runRequest_keeps hc h (fun _ => h) fun _ => ?_
      unfold attachSetOwn
      split
      · refine withBody_keeps b h fun w => ?_
        unfold attachSetFields
        split
        · split
          · dsimp only
            split
            · exact h
            · exact tallyLaw_removeVoter _ (by exact h)
          · split <;> exact h
        · exact h
      · exact h
    case attachDelete =>
      refine runRequest_keeps hc h (fun _ => h) fun _ => withBody_keeps _ h fun w => ?_
      unfold attachDeleteOwn
      split
      · exact tallyLaw_removeVoter _ (by exact h)
      · exact h
    case tallyClearAll =>
      refine runRequest_keeps hc h (fun _ => h) fun _ => ?_
      unfold clearIn
      split
      · exact tallyLaw_of_nil rfl
      · exact h
    case tallyClearFlags =>
      refine runRequest_keeps hc h (fun _ => h) fun _ => ?_
      unfold clearIn
      split
      · rw [tallyLaw_iff] at h ⊢
        exact h.map (f := fun r => { r with coincident := false }) (fun _ => ⟨rfl, rfl⟩) fun _ hr => hr
      · exact h
    case searchStart =>
      refine runRequest_keeps hc h (fun _ => h) fun _ => withBody_keeps _ h fun w => ?_
      unfold searchStartOwn
      split
      · exact h
      · exact (searchMove_startSearch w _).tallyLaw ((confined_startSearch w _).agree .settings (by decide)) h
    case imageLoadCompletion =>
      exact inTurn_keeps hc h (dependsOn_tallyLaw.completeLoad (by decide) h fun _ => tallyLaw_loadGood _ h)
    case resetEngines =>
      exact runRequest_keeps hc h (fun _ => h) fun _ => noBody_keeps h (tallyLaw_of_nil rfl)
    case resetAll => exact runRequest_keeps hc h (fun _ => h) fun _ => noBody_keeps h (tallyLaw_of_nil rfl)
    all_goals cases hothers

/-- Settles O56: by what votes, aging, evaluations and flags make of the records. -/
theorem stepKeepsTallyLaw : Obligations.StepKeepsTallyLaw := fun _ _ hs hstep =>
  dependsOn_tallyLaw.step (fun _ _ _ => exec_keeps_tallyLaw) hs hstep

end Sys2Proof.Machine
end

section
/-! What each operand check asks of a write's fields, in words of the fields, and what the entry it makes is. -/

namespace Sys2Proof.Machine

theorem within_eq_true_iff (a b x : Nat) : within a b x = true ↔ a ≤ x ∧ x ≤ b := by simp [within]

theorem withinInt_eq_true_iff (a b x : Int) : withinInt a b x = true ↔ a ≤ x ∧ x ≤ b := by simp [withinInt]

theorem within_zero_eq_true_iff (b x : Nat) : within 0 b x = true ↔ x ≤ b := by simp [within]

theorem channelOf_eq_some_iff (w : RawChannel) (c : Channel) : channelOf w = some c ↔
    w.enabled = some c.enabled ∧ w.rate = some c.rate ∧ w.threshold = c.threshold ∧ 1 ≤ c.threshold ∧ c.threshold ≤ 65535 := by
  obtain ⟨n, enabled, rate, threshold⟩ := w
  obtain ⟨cEnabled, cRate, cThreshold⟩ := c
  cases enabled with
  | none => simp [channelOf]
  | some e =>
    cases rate with
    | none => simp [channelOf]
    | some k =>
      simp only [channelOf, Option.ite_none_right_eq_some, within_eq_true_iff, Option.some.injEq, Channel.mk.injEq]
      constructor
      · rintro ⟨hrange, rfl, rfl, rfl⟩; exact ⟨rfl, rfl, rfl, hrange⟩
      · rintro ⟨rfl, rfl, rfl, hrange⟩; exact ⟨hrange, rfl, rfl, rfl⟩

theorem alarmOf_eq_some_iff (w : RawAlarm) (e : AlarmEntry) : alarmOf w = some e ↔
    w.source = some e.source ∧ w.polarity = some e.polarity ∧ ∀ n, e.source = .bandDeclared n → n ≤ 31 := by
  have sourceOk (src : AlarmSource) : src.ok = true ↔ ∀ n, src = .bandDeclared n → n ≤ 31 := by
    cases src <;> simp [AlarmSource.ok, within]
  obtain ⟨line, source, polarity⟩ := w
  obtain ⟨eSource, ePolarity⟩ := e
  cases source with
  | none => simp [alarmOf]
  | some src =>
    cases polarity with
    | none => simp [alarmOf]
    | some pol =>
      simp only [alarmOf, Option.ite_none_right_eq_some, sourceOk, Option.some.injEq, AlarmEntry.mk.injEq]
      constructor
      · rintro ⟨hsource, rfl, rfl⟩; exact ⟨rfl, rfl, hsource⟩
      · rintro ⟨rfl, rfl, hsource⟩; exact ⟨hsource, rfl, rfl⟩

theorem bandOf_eq_some_iff (w : RawBand) (b : Band) : bandOf w = some b ↔
    w.enabled = some b.enabled ∧ w.mode = some b.mode ∧ w.start = b.start ∧ w.stop = b.stop ∧ w.floor = b.floor
      ∧ w.declareMargin = b.declareMargin ∧ w.clearMargin = b.clearMargin ∧ w.minBins = b.minBins
      ∧ w.declareCount = b.declareCount ∧ w.clearCount = b.clearCount
      ∧ b.start ≤ b.stop ∧ b.stop ≤ 1023 ∧ -1000 ≤ b.floor ∧ b.floor ≤ 1000
      ∧ 0 ≤ b.clearMargin ∧ b.clearMargin ≤ b.declareMargin ∧ b.declareMargin ≤ 600
      ∧ 1 ≤ b.minBins ∧ b.minBins ≤ 64 ∧ b.minBins ≤ b.stop - b.start + 1
      ∧ 1 ≤ b.declareCount ∧ b.declareCount ≤ 15 ∧ 1 ≤ b.clearCount ∧ b.clearCount ≤ 15 := by
  obtain ⟨n, enabled, start, stop, floor, declareMargin, clearMargin, minBins, declareCount, clearCount, mode⟩ := w
  cases enabled with
  | none => simp [bandOf]
  | some e =>
    cases mode with
    | none => simp [bandOf]
    | some m =>
      simp only [bandOf, Option.ite_none_right_eq_some, Bool.and_eq_true, within_eq_true_iff, withinInt_eq_true_iff,
        decide_eq_true_eq, Option.some.injEq]
      constructor
      · rintro ⟨hranges, rfl⟩
        exact ⟨rfl, rfl, rfl, rfl, rfl, rfl, rfl, rfl, rfl, rfl, by grind⟩
      · rintro ⟨rfl, rfl, rfl, rfl, rfl, rfl, rfl, rfl, rfl, rfl, hranges⟩
        exact ⟨by grind, rfl⟩

theorem correctionOk_iff (c : Correction) : correctionOk c = true ↔ c.gain ≤ 65535 ∧ -1000 ≤ c.offset ∧ c.offset ≤ 1000 := by
  simp [correctionOk, within, withinInt]

theorem slotShapeOk_iff (w : RawSlot) : slotShapeOk w = true ↔
    (w.trigger = some .now → w.period = none ∧ w.events = none ∧ w.bandFilter = none)
      ∧ (w.trigger = some .periodic → w.period ≠ none ∧ w.events = none ∧ w.bandFilter = none)
      ∧ (w.trigger = some .onEvent → w.period = none ∧ w.events ≠ none) := by
  unfold slotShapeOk
  cases w.trigger with
  | none => simp
  | some trigger => cases trigger <;> simp [and_assoc, Option.isSome_iff_ne_none]

theorem EventSet.nonempty_iff (v : EventSet) : v.nonempty = true ↔
    v.declare = true ∨ v.clear = true ∨ v.newSuspect = true ∨ v.tallyFull = true ∨ v.searchEnd = true := by
  simp [EventSet.nonempty, or_assoc]

/-- A check that an absent value passes. -/
theorem getD_map_true_iff {α : Type} (x : Option α) (f : α → Bool) : (x.map f).getD true = true ↔ ∀ a, x = some a → f a = true := by
  cases x <;> simp

/-- The event set that a write names without anything else. -/
theorem events_map_set_iff (sent : Option RawEventSet) (events : Option EventSet) :
    ((∀ v, sent = some v → v.other = false) ∧ sent.map (·.set) = events)
      ↔ sent = events.map (fun v => { set := v, other := false }) := by
  cases sent with
  | none => cases events <;> simp
  | some v =>
    obtain ⟨set, other⟩ := v
    cases events with
    | none => simp
    | some e =>
      simp only [Option.some.injEq, Option.map_some, RawEventSet.mk.injEq]
      constructor
      · rintro ⟨hother, rfl⟩; exact ⟨rfl, hother _ rfl⟩
      · rintro ⟨rfl, rfl⟩; exact ⟨by rintro v rfl; rfl, rfl⟩

theorem slotOf_eq_some_iff (w : RawSlot) (e : SlotEntry) : slotOf w = some e ↔
    w.enabled = some e.enabled ∧ w.repeats = some e.repeats ∧ w.kind = some e.kind ∧ w.trigger = some e.trigger
      ∧ w.period = e.period ∧ w.events = e.events.map (fun v => { set := v, other := false }) ∧ w.bandFilter = e.bandFilter
      ∧ (∀ p, e.period = some p → 1 ≤ p ∧ p ≤ 3600) ∧ (∀ n, e.bandFilter = some n → n ≤ 31)
      ∧ (∀ v, e.events = some v →
          v.declare = true ∨ v.clear = true ∨ v.newSuspect = true ∨ v.tallyFull = true ∨ v.searchEnd = true) := by
  obtain ⟨slot, enabled, repeats, kind, trigger, period, events, bandFilter⟩ := w
  obtain ⟨eEnabled, eRepeats, eKind, eTrigger, ePeriod, eEvents, eBandFilter⟩ := e
  cases enabled with
  | none => simp [slotOf]
  | some en =>
    cases repeats with
    | none => simp [slotOf]
    | some rep =>
      cases kind with
      | none => simp [slotOf]
      | some k =>
        cases trigger with
        | none => simp [slotOf]
        | some tr =>
          simp only [slotOf, Option.ite_none_right_eq_some, Bool.and_eq_true, getD_map_true_iff, within_eq_true_iff,
            EventSet.nonempty_iff, Bool.not_eq_true', Option.some.injEq, SlotEntry.mk.injEq, ← events_map_set_iff]
          constructor
          · rintro ⟨⟨⟨hperiod, hevents⟩, hband⟩, rfl, rfl, rfl, rfl, rfl, rfl, rfl⟩
            refine ⟨rfl, rfl, rfl, rfl, rfl, ⟨fun v hv => (hevents v hv).2, rfl⟩, rfl, hperiod, fun n hn => (hband n hn).2, ?_⟩
            intro v hv
            obtain ⟨x, hx, rfl⟩ := Option.map_eq_some_iff.mp hv
            exact (hevents x hx).1
          · rintro ⟨rfl, rfl, rfl, rfl, rfl, ⟨hother, rfl⟩, rfl, hperiod, hband, hevents⟩
            exact ⟨⟨⟨hperiod, fun v hv => ⟨hevents _ (by rw [hv]; rfl), hother v hv⟩⟩, fun n hn => ⟨Nat.zero_le n, hband n hn⟩⟩,
              rfl, rfl, rfl, rfl, rfl, rfl, rfl⟩

theorem settingsFault_eq (w : RawSettings) : settingsFault w =
    if 1000 < w.window then some .window
    else if w.promote = 0 ∨ 8 < w.promote then some .promote
    else if w.aging < 10 ∨ 86400 < w.aging then some .aging
    else if 100 < w.mFull then some .mFull
    else if w.mLow = 0 ∨ 100 < w.mLow then some .mLow
    else if w.watchdog = 0 ∨ 255 < w.watchdog then some .watchdog
    else if w.mode = none then some .mode
    else if w.interval = 0 ∨ 3600 < w.interval then some .interval
    else if w.crcThreshold = 0 ∨ 65535 < w.crcThreshold then some .crcThreshold
    else none := by
  have outside (a b x : Nat) : (!within a b x) = true ↔ x < a ∨ b < x := by simp [within]
  simp only [settingsFault, outside, Option.isNone_iff_eq_none, Nat.not_lt_zero, false_or, Nat.lt_one_iff]

theorem ite_eq_none_iff {α : Type} {c : Prop} [Decidable c] {x : α} {rest : Option α} :
    (if c then some x else rest) = none ↔ ¬ c ∧ rest = none := by
  by_cases h : c <;> simp [h]

theorem settingsFault_eq_none_iff (w : RawSettings) : settingsFault w = none ↔
    w.window ≤ 1000 ∧ 1 ≤ w.promote ∧ w.promote ≤ 8 ∧ 10 ≤ w.aging ∧ w.aging ≤ 86400 ∧ w.mFull ≤ 100
      ∧ 1 ≤ w.mLow ∧ w.mLow ≤ 100 ∧ 1 ≤ w.watchdog ∧ w.watchdog ≤ 255 ∧ w.mode ≠ none
      ∧ 1 ≤ w.interval ∧ w.interval ≤ 3600 ∧ 1 ≤ w.crcThreshold ∧ w.crcThreshold ≤ 65535 := by
  by_cases hmode : w.mode = none <;>
    simp only [settingsFault_eq, ite_eq_none_iff, hmode, reduceCtorEq, and_false, and_true, ne_eq, not_true_eq_false,
      not_false_eq_true, false_and, true_and]
  all_goals omega

theorem elementOk_iff (r : RawElement) : elementOk r = true ↔
    r.number ≤ 511 ∧ r.kind ≠ none ∧ (∀ p, r.parent = some p → p ≤ 511)
      ∧ (r.number = 0 → r.delay = 0) ∧ (r.number ≠ 0 → 1 ≤ r.delay ∧ r.delay ≤ 65535)
      ∧ (r.tapPorts ≠ none ↔ r.kind = some .tap)
      ∧ r.legAddress ≤ 254 ∧ (r.number = 0 → r.legAddress = 0) := by
  have portsIff : (r.tapPorts.isSome == (r.kind == some .tap)) = true ↔ (r.tapPorts ≠ none ↔ r.kind = some .tap) := by
    cases r.tapPorts <;> cases hk : (r.kind == some ElementKind.tap) <;> simp_all
  simp only [elementOk, Bool.and_eq_true, getD_map_true_iff, within_zero_eq_true_iff, portsIff, Option.isSome_iff_ne_none,
    Bool.or_eq_true, decide_eq_true_eq]
  by_cases h0 : r.number = 0
  · simp only [h0, if_true, decide_eq_true_eq, ne_eq]
    grind
  · simp only [h0, if_false, within_eq_true_iff, ne_eq]
    grind

end Sys2Proof.Machine
end

section
/-! The laws of the tables and of the settings record (O57), table by table. -/

namespace Sys2Proof.Machine

/-! ## A table of a fixed number of entries -/

/-- A list with its number of entries, each of them admitted. -/
structure EntriesOk {α : Type} (n : Nat) (ok : α → Prop) (l : List α) : Prop where
  length : l.length = n
  entries : ∀ x ∈ l, ok x

theorem EntriesOk.set {α : Type} {n : Nat} {ok : α → Prop} {l : List α} (h : EntriesOk n ok l) (i : Nat) {x : α} (hx : ok x) :
    EntriesOk n ok (l.set i x) :=
  ⟨by rw [List.length_set, h.length],
    fun y hy => (List.mem_or_eq_of_mem_set hy).elim (h.entries y) fun heq => heq ▸ hx⟩

theorem EntriesOk.map {α : Type} {n : Nat} {ok : α → Prop} {l : List α} (h : EntriesOk n ok l) {f : α → α}
    (hf : ∀ x, ok x → ok (f x)) : EntriesOk n ok (l.map f) :=
  ⟨by rw [List.length_map, h.length], fun y hy => by
    obtain ⟨x, hx, rfl⟩ := List.mem_map.mp hy
    exact hf x (h.entries x hx)⟩

theorem entriesOk_replicate {α : Type} {n : Nat} {ok : α → Prop} {x : α} (hx : ok x) : EntriesOk n ok (List.replicate n x) :=
  ⟨List.length_replicate, fun _ hy => List.eq_of_mem_replicate hy ▸ hx⟩

/-- Replacing a run inside a table by entries that are admitted. -/
theorem EntriesOk.replaceRun {α : Type} {n : Nat} {ok : α → Prop} {l : List α} (h : EntriesOk n ok l) {start : Nat}
    {run : List α} (hfits : start + run.length ≤ n) (hrun : ∀ x ∈ run, ok x) : EntriesOk n ok (replaceRun l start run) := by
  have hlength := h.length
  refine ⟨by simp only [Machine.replaceRun, List.length_append, List.length_take, List.length_drop]; omega, fun x hx => ?_⟩
  simp only [Machine.replaceRun, List.mem_append] at hx
  obtain (hx | hx) | hx := hx
  · exact h.entries x (List.mem_of_mem_take hx)
  · exact hrun x hx
  · exact h.entries x (List.mem_of_mem_drop hx)

/-! ## What is admitted in each table -/

def ChannelAdmitted (c : Channel) : Prop := channelOf (rawChannel 0 c) = some c

def BandAdmitted (x : BandSlot) : Prop := bandOf (rawBand 0 x.entry) = some x.entry

def CorrectionAdmitted (c : Correction) : Prop := correctionOk c = true

def SlotAdmitted (x : ReportSlot) : Prop :=
  slotShapeOk (rawSlot 0 x.entry) = true ∧ slotOf (rawSlot 0 x.entry) = some x.entry

def AlarmAdmitted (e : AlarmEntry) : Prop := alarmOf (rawAlarm 0 e) = some e

theorem tableLaw_iff (s : State) : TableLaw s ↔ EntriesOk 8 ChannelAdmitted s.echo.channels
    ∧ EntriesOk 32 BandAdmitted s.bands.bands ∧ EntriesOk 32 CorrectionAdmitted s.sweep.corrections
    ∧ EntriesOk 8 SlotAdmitted s.reports.slots ∧ EntriesOk 4 AlarmAdmitted s.reports.alarms :=
  ⟨fun ⟨⟨hc, hc'⟩, ⟨hb, hb'⟩, ⟨hk, hk'⟩, ⟨hs, hs'⟩, ⟨ha, ha'⟩⟩ => ⟨⟨hc, hc'⟩, ⟨hb, hb'⟩, ⟨hk, hk'⟩, ⟨hs, hs'⟩, ⟨ha, ha'⟩⟩,
    fun ⟨hc, hb, hk, hs, ha⟩ => ⟨⟨hc.1, hc.2⟩, ⟨hb.1, hb.2⟩, ⟨hk.1, hk.2⟩, ⟨hs.1, hs.2⟩, ⟨ha.1, ha.2⟩⟩⟩

/-- An entry that a write makes is admitted. -/
theorem channelAdmitted_of_channelOf {w : RawChannel} {c : Channel} (h : channelOf w = some c) : ChannelAdmitted c := by
  obtain ⟨-, -, -, hrange⟩ := (channelOf_eq_some_iff w c).mp h
  exact (channelOf_eq_some_iff _ c).mpr ⟨rfl, rfl, rfl, hrange⟩

theorem bandAdmitted_of_bandOf {w : RawBand} {b : Band} (live : BandLive) (h : bandOf w = some b) :
    BandAdmitted { entry := b, live := live } := by
  obtain ⟨-, -, -, -, -, -, -, -, -, -, hranges⟩ := (bandOf_eq_some_iff w b).mp h
  exact (bandOf_eq_some_iff _ b).mpr ⟨rfl, rfl, rfl, rfl, rfl, rfl, rfl, rfl, rfl, rfl, hranges⟩

theorem alarmAdmitted_of_alarmOf {w : RawAlarm} {e : AlarmEntry} (h : alarmOf w = some e) : AlarmAdmitted e := by
  obtain ⟨-, -, hsource⟩ := (alarmOf_eq_some_iff w e).mp h
  exact (alarmOf_eq_some_iff _ e).mpr ⟨rfl, rfl, hsource⟩

theorem slotAdmitted_of_slotOf {w : RawSlot} {e : SlotEntry} (due : Option Nat) (hshape : slotShapeOk w = true)
    (h : slotOf w = some e) : SlotAdmitted { entry := e, due := due } := by
  obtain ⟨-, -, -, htrigger, hperiod, hevents, hband, hranges⟩ := (slotOf_eq_some_iff w e).mp h
  refine ⟨?_, (slotOf_eq_some_iff _ e).mpr ⟨rfl, rfl, rfl, rfl, rfl, rfl, rfl, hranges⟩⟩
  rw [slotShapeOk_iff] at hshape ⊢
  rw [htrigger, hperiod, hevents, hband] at hshape
  exact hshape

/-- A slot's own timer and whether it is enabled are nothing to its entry's values. -/
theorem SlotAdmitted.of_entry {x : ReportSlot} (h : SlotAdmitted x) (enabled : Bool) (due : Option Nat) :
    SlotAdmitted { entry := { x.entry with enabled := enabled }, due := due } := by
  obtain ⟨hshape, hslot⟩ := h
  obtain ⟨-, -, -, -, -, -, -, hranges⟩ := (slotOf_eq_some_iff _ _).mp hslot
  refine ⟨?_, (slotOf_eq_some_iff _ _).mpr ⟨rfl, rfl, rfl, rfl, rfl, rfl, rfl, hranges⟩⟩
  rw [slotShapeOk_iff] at hshape ⊢
  exact hshape

/-! ## The reset values -/

theorem entriesOk_resetChannels : EntriesOk 8 ChannelAdmitted resetChannels := entriesOk_replicate (by rfl)

theorem entriesOk_resetBands : EntriesOk 32 BandAdmitted resetBands := entriesOk_replicate (by unfold BandAdmitted; decide)

theorem entriesOk_resetCorrections : EntriesOk 32 CorrectionAdmitted resetCorrections :=
  entriesOk_replicate (by unfold CorrectionAdmitted; decide)

theorem entriesOk_resetSlots : EntriesOk 8 SlotAdmitted resetSlots := entriesOk_replicate ⟨rfl, rfl⟩

theorem entriesOk_resetAlarms : EntriesOk 4 AlarmAdmitted resetAlarms := entriesOk_replicate (by rfl)

/-! ## The channel table -/

def ChannelsOk (s : State) : Prop := EntriesOk 8 ChannelAdmitted s.echo.channels

theorem dependsOn_channelsOk : DependsOn [.channels] ChannelsOk := by
  intro s t h hs
  have heq : t.echo.channels = s.echo.channels := h .channels (by simp)
  rw [ChannelsOk, heq]; exact hs

theorem channelsOk_loadGood (l : List ImageRecord) {s : State} (h : ChannelsOk s) : ChannelsOk (loadGood l s) := by
  have hsettings := dependsOn_channelsOk.keeps (confined_loadSettings l s) (by decide) h
  have hentries : ChannelsOk (loadEntries l (loadSettings l s)) := loadEntries_keeps (P := ChannelsOk)
    (fun t w c _ hc ht => EntriesOk.set ht w.channel (channelAdmitted_of_channelOf hc))
    (fun t _ _ _ _ ht => dependsOn_channelsOk.keeps (confined_setBand _ _ t) (by decide) ht)
    (fun t _ _ _ ht => dependsOn_channelsOk.keeps (confined_setCorrections _ _ t) (by decide) ht)
    (fun t _ _ _ _ ht => dependsOn_channelsOk.keeps (confined_setAlarm _ _ t) (by decide) ht) hsettings
  have hslots := dependsOn_channelsOk.keeps (confined_loadSlots l _) (by decide) hentries
  have helements := dependsOn_channelsOk.keeps (confined_loadElements l _) (by decide) hslots
  have hmap := dependsOn_channelsOk.keeps (confined_loadMap l _) (by decide) helements
  exact dependsOn_channelsOk.keeps (confined_setStatus .loaded _) (by decide) hmap

theorem exec_keeps_channelsOk {c : Instr} {s t : State} (hm : touchesAny [.channels] c = true) (h : ChannelsOk s)
    (hc : exec c s = .next t) : ChannelsOk t := by
  cases c
  case powerOn => cases hc; exact entriesOk_resetChannels
  case pinReset => cases hc; exact entriesOk_resetChannels
  case tableWriteChannel =>
    refine runRequest_keeps hc h (fun _ => h) fun _ => withBody_keeps _ h fun w => ?_
    unfold tableWriteChannelOwn
    split
    · split
      · next hw => exact EntriesOk.set h w.channel (channelAdmitted_of_channelOf hw)
      · exact h
    · exact h
  case imageLoadCompletion =>
    exact inTurn_keeps hc h (dependsOn_channelsOk.completeLoad (by decide) h fun _ => channelsOk_loadGood _ h)
  case resetAll => exact runRequest_keeps hc h (fun _ => h) fun _ => noBody_keeps h entriesOk_resetChannels
  all_goals cases hm

/-! ## The band table -/

def BandsOk (s : State) : Prop := EntriesOk 32 BandAdmitted s.bands.bands

theorem dependsOn_bandsOk : DependsOn [.bands] BandsOk := by
  intro s t h hs
  have heq : t.bands.bands = s.bands.bands := h .bands (by simp)
  rw [BandsOk, heq]; exact hs

theorem bandAdmitted_bandAfter (levels : List Level) {x : BandSlot} (h : BandAdmitted x) : BandAdmitted (bandAfter levels x) := by
  unfold bandAfter
  split <;> exact h

theorem bandsOk_loadGood (l : List ImageRecord) {s : State} (h : BandsOk s) : BandsOk (loadGood l s) := by
  have hsettings := dependsOn_bandsOk.keeps (confined_loadSettings l s) (by decide) h
  have hentries : BandsOk (loadEntries l (loadSettings l s)) := loadEntries_keeps (P := BandsOk)
    (fun t _ _ _ _ ht => dependsOn_bandsOk.keeps (confined_setChannel _ _ t) (by decide) ht)
    (fun t w b _ hb ht => EntriesOk.set ht w.band (bandAdmitted_of_bandOf resetLive hb))
    (fun t _ _ _ ht => dependsOn_bandsOk.keeps (confined_setCorrections _ _ t) (by decide) ht)
    (fun t _ _ _ _ ht => dependsOn_bandsOk.keeps (confined_setAlarm _ _ t) (by decide) ht) hsettings
  have hslots := dependsOn_bandsOk.keeps (confined_loadSlots l _) (by decide) hentries
  have helements := dependsOn_bandsOk.keeps (confined_loadElements l _) (by decide) hslots
  have hmap := dependsOn_bandsOk.keeps (confined_loadMap l _) (by decide) helements
  exact dependsOn_bandsOk.keeps (confined_setStatus .loaded _) (by decide) hmap

theorem exec_keeps_bandsOk {c : Instr} {s t : State} (hm : touchesAny [.bands] c = true) (h : BandsOk s)
    (hc : exec c s = .next t) : BandsOk t := by
  have transferred : EntriesOk 32 BandAdmitted (s.bands.bands.map transferBand) := EntriesOk.map h fun _ hx => hx
  cases c
  case powerOn => cases hc; exact entriesOk_resetBands
  case pinReset => cases hc; exact entriesOk_resetBands
  case spectrumSeg f =>
    refine inTurn_keeps hc h ?_
    obtain hsame | ⟨levels, hmap⟩ := receiveSegment_bands f s
    · rw [BandsOk, hsame]; exact h
    · rw [BandsOk, hmap]; exact EntriesOk.map h fun _ => bandAdmitted_bandAfter levels
  case bandIntervalExpiry =>
    refine inTurn_keeps hc h ?_
    unfold bandIntervalExpiry
    split
    · exact h
    · exact transferred
  case tableWriteBand =>
    refine runRequest_keeps hc h (fun _ => h) fun _ => withBody_keeps _ h fun w => ?_
    unfold tableWriteBandOwn
    split
    · split
      · next hw =>
        split
        · exact h
        · exact EntriesOk.set h w.band (bandAdmitted_of_bandOf resetLive hw)
      · exact h
    · exact h
  case counterSnapshot =>
    refine runRequest_keeps hc h (fun _ => h) fun _ => noBody_keeps h ?_
    unfold counterSnapshotOwn
    split
    · exact h
    · exact transferred
  case imageLoadCompletion =>
    exact inTurn_keeps hc h (dependsOn_bandsOk.completeLoad (by decide) h fun _ => bandsOk_loadGood _ h)
  case resetEngines =>
    exact runRequest_keeps hc h (fun _ => h) fun _ => noBody_keeps h
      (EntriesOk.map (f := fun x => { x with live := resetLive }) h fun _ hx => hx)
  case resetAll => exact runRequest_keeps hc h (fun _ => h) fun _ => noBody_keeps h entriesOk_resetBands
  all_goals cases hm

/-! ## The correction table -/

def CorrectionsOk (s : State) : Prop := EntriesOk 32 CorrectionAdmitted s.sweep.corrections

theorem dependsOn_correctionsOk : DependsOn [.corrections] CorrectionsOk := by
  intro s t h hs
  have heq : t.sweep.corrections = s.sweep.corrections := h .corrections (by simp)
  rw [CorrectionsOk, heq]; exact hs

theorem correctionsOk_loadGood {l : List ImageRecord} (hl : ∀ x ∈ l, recordOk x = true) {s : State} (h : CorrectionsOk s) :
    CorrectionsOk (loadGood l s) := by
  have hsettings := dependsOn_correctionsOk.keeps (confined_loadSettings l s) (by decide) h
  have hentries : CorrectionsOk (loadEntries l (loadSettings l s)) := loadEntries_keeps (P := CorrectionsOk)
    (fun t _ _ _ _ ht => dependsOn_correctionsOk.keeps (confined_setChannel _ _ t) (by decide) ht)
    (fun t _ _ _ _ ht => dependsOn_correctionsOk.keeps (confined_setBand _ _ t) (by decide) ht)
    (fun t n c hc ht => by
      obtain ⟨hn, hok⟩ := Bool.and_eq_true_iff.mp (hl _ hc)
      rw [within_zero_eq_true_iff] at hn
      exact EntriesOk.replaceRun ht (by simp; omega) fun x hx => List.mem_singleton.mp hx ▸ hok)
    (fun t _ _ _ _ ht => dependsOn_correctionsOk.keeps (confined_setAlarm _ _ t) (by decide) ht) hsettings
  have hslots := dependsOn_correctionsOk.keeps (confined_loadSlots l _) (by decide) hentries
  have helements := dependsOn_correctionsOk.keeps (confined_loadElements l _) (by decide) hslots
  have hmap := dependsOn_correctionsOk.keeps (confined_loadMap l _) (by decide) helements
  exact dependsOn_correctionsOk.keeps (confined_setStatus .loaded _) (by decide) hmap

theorem exec_keeps_correctionsOk {c : Instr} {s t : State} (hm : touchesAny [.corrections] c = true) (h : CorrectionsOk s)
    (hc : exec c s = .next t) : CorrectionsOk t := by
  cases c
  case powerOn => cases hc; exact entriesOk_resetCorrections
  case pinReset => cases hc; exact entriesOk_resetCorrections
  case tableWriteCorrection =>
    refine runRequest_keeps hc h (fun _ => h) fun _ => withBody_keeps _ h fun w => ?_
    unfold tableWriteCorrectionOwn
    split
    · exact h
    · next hcount =>
      split
      · exact h
      · next hrange =>
        split
        · exact h
        · next hvalues =>
          split
          · exact h
          · simp only [Bool.not_eq_true', Bool.not_eq_false, Bool.and_eq_true, decide_eq_true_eq, List.all_eq_true]
              at hrange hvalues
            exact EntriesOk.replaceRun h (by omega) hvalues
  case imageLoadCompletion =>
    exact inTurn_keeps hc h (dependsOn_correctionsOk.completeLoad (by decide) h
      fun hg => correctionsOk_loadGood (fun _ => recordOk_of_imageGood hg) h)
  case resetAll => exact runRequest_keeps hc h (fun _ => h) fun _ => noBody_keeps h entriesOk_resetCorrections
  all_goals cases hm

/-! ## The report slots -/

def SlotsOk (s : State) : Prop := EntriesOk 8 SlotAdmitted s.reports.slots

theorem dependsOn_slotsOk : DependsOn [.slots] SlotsOk := by
  intro s t h hs
  have heq : t.reports.slots = s.reports.slots := h .slots (by simp)
  rw [SlotsOk, heq]; exact hs

theorem slotsOk_loadGood {l : List ImageRecord} (hl : ∀ x ∈ l, recordOk x = true) {s : State} (h : SlotsOk s) :
    SlotsOk (loadGood l s) := by
  have hsettings := dependsOn_slotsOk.keeps (confined_loadSettings l s) (by decide) h
  have hentries := dependsOn_slotsOk.keeps (confined_loadEntries l _) (by decide) hsettings
  have hslots : SlotsOk (loadSlots l (loadEntries l (loadSettings l s))) := loadSlots_keeps (P := SlotsOk)
    (fun t w e hw he ht => by
      have hok := hl _ hw
      simp only [recordOk, Bool.and_eq_true] at hok
      exact EntriesOk.set ht w.slot (slotAdmitted_of_slotOf _ hok.1.1 he)) hentries
  have helements := dependsOn_slotsOk.keeps (confined_loadElements l _) (by decide) hslots
  have hmap := dependsOn_slotsOk.keeps (confined_loadMap l _) (by decide) helements
  exact dependsOn_slotsOk.keeps (confined_setStatus .loaded _) (by decide) hmap

theorem slotsOk_sendReport (q : QueuedSlot) (rest : List QueuedSlot) {x : ReportSlot} (l : Link) {s : State}
    (hx : s.reports.slots[q.slot]? = some x) (h : SlotsOk s) : SlotsOk (sendReport q rest x l s) := by
  unfold sendReport SlotsOk
  dsimp only
  split
  · split <;> exact h
  · exact EntriesOk.set h q.slot ((h.entries x (List.mem_of_getElem? hx)).of_entry false none)

theorem slotsOk_hubChoice {s : State} (h : SlotsOk s) : SlotsOk (hubChoice s) := by
  unfold hubChoice
  dsimp only
  split
  · split
    · exact h
    · split <;> exact h
  · split
    · next hx => exact slotsOk_sendReport _ _ _ (Option.ite_none_right_eq_some.mp hx).2 h
    · exact h
    · exact h
  · exact h
  · exact h

theorem slotsOk_periodExpiry (slot : Nat) {s : State} (h : SlotsOk s) : SlotsOk (periodExpiry slot s) := by
  unfold periodExpiry
  split
  · exact h
  · next x hx =>
    split
    · exact h
    · split
      · exact h
      · unfold SlotsOk
        dsimp only
        rw [(triggerSlot_frame _ _ _).1]
        exact EntriesOk.set h slot ((h.entries x (List.mem_of_getElem? hx)).of_entry x.entry.enabled _)

theorem exec_keeps_slotsOk {c : Instr} {s t : State} (hm : touchesAny [.slots] c = true) (h : SlotsOk s)
    (hc : exec c s = .next t) : SlotsOk t := by
  cases c
  case powerOn => cases hc; exact entriesOk_resetSlots
  case pinReset => cases hc; exact entriesOk_resetSlots
  case hubTxChoice =>
    refine inTurn_keeps hc h ?_
    split
    · exact slotsOk_hubChoice h
    · exact h
  case periodTimerExpiry n => exact inTurn_keeps hc h (slotsOk_periodExpiry n h)
  case tableWriteReportSlot =>
    refine runRequest_keeps hc h (fun _ => h) fun _ => withBody_keeps _ h fun w => ?_
    unfold tableWriteReportSlotOwn
    split
    · next hshape =>
      split
      · split
        · next hw => exact EntriesOk.set h w.slot (slotAdmitted_of_slotOf _ hshape hw)
        · exact h
      · exact h
    · exact h
  case imageLoadCompletion =>
    exact inTurn_keeps hc h (dependsOn_slotsOk.completeLoad (by decide) h
      fun hg => slotsOk_loadGood (fun _ => recordOk_of_imageGood hg) h)
  case resetEngines =>
    exact runRequest_keeps hc h (fun _ => h) fun _ => noBody_keeps h
      (EntriesOk.map (f := fun x => { x with due := periodStart s.clocks.elapsed x.entry }) h fun _ hx => hx)
  case resetAll => exact runRequest_keeps hc h (fun _ => h) fun _ => noBody_keeps h entriesOk_resetSlots
  all_goals cases hm

/-! ## The alarm lines -/

def AlarmsOk (s : State) : Prop := EntriesOk 4 AlarmAdmitted s.reports.alarms

theorem dependsOn_alarmsOk : DependsOn [.alarms] AlarmsOk := by
  intro s t h hs
  have heq : t.reports.alarms = s.reports.alarms := h .alarms (by simp)
  rw [AlarmsOk, heq]; exact hs

theorem alarmsOk_loadGood (l : List ImageRecord) {s : State} (h : AlarmsOk s) : AlarmsOk (loadGood l s) := by
  have hsettings := dependsOn_alarmsOk.keeps (confined_loadSettings l s) (by decide) h
  have hentries : AlarmsOk (loadEntries l (loadSettings l s)) := loadEntries_keeps (P := AlarmsOk)
    (fun t _ _ _ _ ht => dependsOn_alarmsOk.keeps (confined_setChannel _ _ t) (by decide) ht)
    (fun t _ _ _ _ ht => dependsOn_alarmsOk.keeps (confined_setBand _ _ t) (by decide) ht)
    (fun t _ _ _ ht => dependsOn_alarmsOk.keeps (confined_setCorrections _ _ t) (by decide) ht)
    (fun t w e _ he ht => EntriesOk.set ht w.line (alarmAdmitted_of_alarmOf he)) hsettings
  have hslots := dependsOn_alarmsOk.keeps (confined_loadSlots l _) (by decide) hentries
  have helements := dependsOn_alarmsOk.keeps (confined_loadElements l _) (by decide) hslots
  have hmap := dependsOn_alarmsOk.keeps (confined_loadMap l _) (by decide) helements
  exact dependsOn_alarmsOk.keeps (confined_setStatus .loaded _) (by decide) hmap

theorem exec_keeps_alarmsOk {c : Instr} {s t : State} (hm : touchesAny [.alarms] c = true) (h : AlarmsOk s)
    (hc : exec c s = .next t) : AlarmsOk t := by
  cases c
  case powerOn => cases hc; exact entriesOk_resetAlarms
  case pinReset => cases hc; exact entriesOk_resetAlarms
  case tableWriteAlarmLine =>
    refine runRequest_keeps hc h (fun _ => h) fun _ => withBody_keeps _ h fun w => ?_
    unfold tableWriteAlarmLineOwn
    split
    · split
      · next hw => exact EntriesOk.set h w.line (alarmAdmitted_of_alarmOf hw)
      · exact h
    · exact h
  case imageLoadCompletion =>
    exact inTurn_keeps hc h (dependsOn_alarmsOk.completeLoad (by decide) h fun _ => alarmsOk_loadGood _ h)
  case resetAll => exact runRequest_keeps hc h (fun _ => h) fun _ => noBody_keeps h entriesOk_resetAlarms
  all_goals cases hm

/-! ## The settings record and the node address -/

theorem dependsOn_settingsLaw : DependsOn [.settings, .address] SettingsLaw := by
  intro s t h
  have hsettings : t.mgmt.settings = s.mgmt.settings := h .settings (by simp)
  have haddress : t.mgmt.nodeAddress = s.mgmt.nodeAddress := h .address (by simp)
  simp [SettingsLaw, hsettings, haddress]

/-- The node address that a strap value gives is one of R171. -/
theorem strapAddress_range (strap : Byte) : 1 ≤ (strapAddress strap).toNat ∧ (strapAddress strap).toNat ≤ 254 := by
  unfold strapAddress
  split
  · decide
  · split
    · decide
    · have := strap.isLt
      bv_omega

theorem settingsLaw_reset {s : State} (hsettings : s.mgmt.settings = resetSettings) {strap : Byte}
    (haddress : s.mgmt.nodeAddress = strapAddress strap) : SettingsLaw s := by
  rw [SettingsLaw, hsettings, haddress]
  exact ⟨rfl, strapAddress_range strap⟩

/-- A settings write that passes makes a record that passes. -/
theorem settingsFault_rawSettings {w : RawSettings} (h : settingsFault w = none) :
    settingsFault (rawSettings (settingsOf w)) = none := by
  rw [settingsFault_eq_none_iff] at h ⊢
  simp only [rawSettings, settingsOf, ne_eq, reduceCtorEq, not_false_eq_true, true_and]
  omega

theorem settingsLaw_applySettings {w : RawSettings} (hw : settingsFault w = none) {s : State} (h : SettingsLaw s) :
    SettingsLaw (applySettings (settingsOf w) s) := by
  rw [SettingsLaw, applySettings_mgmt]
  exact ⟨settingsFault_rawSettings hw, h.2⟩

theorem settingsLaw_loadGood {l : List ImageRecord} (hl : ∀ x ∈ l, recordOk x = true) {s : State} (h : SettingsLaw s) :
    SettingsLaw (loadGood l s) := by
  have hsettings : SettingsLaw (loadSettings l s) := loadSettings_keeps (P := SettingsLaw)
    (fun _ w hw ht => settingsLaw_applySettings (Option.isNone_iff_eq_none.mp (hl (.settings w) hw)) ht) h
  have hentries := dependsOn_settingsLaw.keeps (confined_loadEntries l _) (by decide) hsettings
  have hslots := dependsOn_settingsLaw.keeps (confined_loadSlots l _) (by decide) hentries
  have helements := dependsOn_settingsLaw.keeps (confined_loadElements l _) (by decide) hslots
  have hmap := dependsOn_settingsLaw.keeps (confined_loadMap l _) (by decide) helements
  exact dependsOn_settingsLaw.keeps (confined_setStatus .loaded _) (by decide) hmap

theorem exec_keeps_settingsLaw {c : Instr} {s t : State} (hm : touchesAny [.settings, .address] c = true) (h : SettingsLaw s)
    (hc : exec c s = .next t) : SettingsLaw t := by
  cases c
  case powerOn strap => cases hc; exact settingsLaw_reset (strap := strap) rfl rfl
  case pinReset strap => cases hc; exact settingsLaw_reset (strap := strap) rfl rfl
  case tableWriteSettings =>
    refine runRequest_keeps hc h (fun _ => h) fun _ => withBody_keeps _ h fun w => ?_
    unfold tableWriteSettingsOwn
    split
    · exact h
    · next hw => exact settingsLaw_applySettings hw h
  case addressSet =>
    refine runRequest_keeps hc h (fun _ => h) fun _ => withBody_keeps _ h fun a => ?_
    unfold addressSetOwn
    split
    · next ha =>
      rw [within_eq_true_iff] at ha
      refine ⟨h.1, ?_⟩
      show 1 ≤ (BitVec.ofNat 8 a).toNat ∧ (BitVec.ofNat 8 a).toNat ≤ 254
      rw [BitVec.toNat_ofNat]
      omega
    · exact h
  case imageLoadCompletion =>
    exact inTurn_keeps hc h (dependsOn_settingsLaw.completeLoad (by decide) h
      fun hg => settingsLaw_loadGood (fun _ => recordOk_of_imageGood hg) h)
  case resetAll =>
    exact runRequest_keeps hc h (fun _ => h) fun _ => noBody_keeps h (settingsLaw_reset (strap := s.mgmt.strap) rfl rfl)
  all_goals cases hm

/-- Settles O57: table by table, an entry a write makes is one a write accepts. -/
theorem stepKeepsTableLaw : Obligations.StepKeepsTableLaw := by
  intro s t hsettings htable hstep
  rw [tableLaw_iff] at htable ⊢
  obtain ⟨hchannels, hbands, hcorrections, hslots, halarms⟩ := htable
  exact ⟨dependsOn_settingsLaw.step (fun _ _ _ => exec_keeps_settingsLaw) hsettings hstep,
    dependsOn_channelsOk.step (fun _ _ _ => exec_keeps_channelsOk) hchannels hstep,
    dependsOn_bandsOk.step (fun _ _ _ => exec_keeps_bandsOk) hbands hstep,
    dependsOn_correctionsOk.step (fun _ _ _ => exec_keeps_correctionsOk) hcorrections hstep,
    dependsOn_slotsOk.step (fun _ _ _ => exec_keeps_slotsOk) hslots hstep,
    dependsOn_alarmsOk.step (fun _ _ _ => exec_keeps_alarmsOk) halarms hstep⟩

end Sys2Proof.Machine
end

section
/-! The law of the elements and the attachments (O53). -/

namespace Sys2Proof.Machine

/-! ## Tables filled from pairs -/

theorem distinct_eq_true_iff {α : Type} [DecidableEq α] (l : List α) : distinct l = true ↔ l.Nodup := by
  induction l with
  | nil => simp [distinct]
  | cons x rest ih => simp [distinct, ih]

theorem tableOk_tableOf {α : Type} {bound : Nat} {pairs : List (Nat × α)} (h : ∀ p ∈ pairs, p.1 < bound) :
    tableOk bound (tableOf pairs) = true := tableOk_foldl_tableSet pairs h rfl

theorem mem_tableOf {α : Type} {pairs : List (Nat × α)} {p : Nat × α} (h : p ∈ tableOf pairs) : p ∈ pairs := by
  have hfold : ∀ q ∈ tableOf pairs, q ∈ pairs :=
    List.foldlRecOn (motive := fun t => ∀ q ∈ t, q ∈ pairs) _ _ (fun _ hq => nomatch hq)
      fun t ht q hq _ hp => (mem_tableSet hp).elim (fun heq => heq ▸ hq) (ht _)
  exact hfold p h

/-- A key that no two pairs share is shared by no two entries of the table they fill. -/
theorem nodup_map_tableOf {α β : Type} {bound : Nat} {pairs : List (Nat × α)} (g : Nat × α → β) (h : ∀ p ∈ pairs, p.1 < bound)
    (hkeys : (pairs.map g).Nodup) : ((tableOf pairs).map g).Nodup :=
  (nodup_map_iff_of_nodup (nodup_of_tableOk (tableOk_tableOf h))).mpr fun _ hp _ hq heq =>
    eq_of_nodup_map hkeys (mem_tableOf hp) (mem_tableOf hq) heq

/-! ## The elements (R6) -/

/-- What ElementLaw asks of an element table. -/
structure ElementsOk (t : Table Element) : Prop where
  table : tableOk 512 t = true
  records : ∀ p ∈ t, elementOk (rawElement p.1 p.2) = true

theorem elementLaw_iff (s : State) : ElementLaw s ↔ ElementsOk s.map.elements :=
  ⟨fun ⟨htable, hrecords⟩ => ⟨htable, hrecords⟩, fun h => ⟨h.table, h.records⟩⟩

theorem elementsOk_nil : ElementsOk [] := ⟨rfl, fun _ hp => nomatch hp⟩

/-- The record of an element made by a record that passes is that record. -/
theorem rawElement_elementOf {w : RawElement} (h : elementOk w = true) : rawElement w.number (elementOf w) = w := by
  obtain ⟨-, hkind, -⟩ := (elementOk_iff w).mp h
  obtain ⟨k, hk⟩ := Option.ne_none_iff_exists'.mp hkind
  simp [rawElement, elementOf, hk]
  rw [← hk]

theorem number_lt_of_elementOk {w : RawElement} (h : elementOk w = true) : w.number < 512 :=
  Nat.lt_succ_of_le ((elementOk_iff w).mp h).1

theorem ElementsOk.tableSet {t : Table Element} (h : ElementsOk t) {w : RawElement} (hw : elementOk w = true) :
    ElementsOk (tableSet t w.number (elementOf w)) := by
  refine ⟨tableOk_tableSet _ (number_lt_of_elementOk hw) h.table, fun p hp => ?_⟩
  obtain rfl | hold := mem_tableSet hp
  · rwa [rawElement_elementOf hw]
  · exact h.records p hold

theorem firstBadElement_eq_none_iff (l : List RawElement) : ∀ i, firstBadElement i l = none ↔ ∀ w ∈ l, elementOk w = true := by
  induction l with
  | nil => simp [firstBadElement]
  | cons w rest ih =>
    intro i
    cases hw : elementOk w <;> simp [firstBadElement, hw, ih]

theorem ElementsOk.writeElements {t : Table Element} (h : ElementsOk t) {l : List RawElement}
    (hl : ∀ w ∈ l, elementOk w = true) : ElementsOk (writeElements l t) :=
  List.foldlRecOn _ _ h fun _ ht w hw => ht.tableSet (hl w hw)

theorem ElementsOk.tableDel {t : Table Element} (h : ElementsOk t) (n : Nat) : ElementsOk (tableDel t n) :=
  ⟨tableOk_tableDel n h.table, fun p hp => h.records p (List.mem_filter.mp hp).1⟩

theorem ElementsOk.deleteElements {t : Table Element} (h : ElementsOk t) (l : List Nat) : ElementsOk (deleteElements l t) :=
  List.foldlRecOn _ _ h fun _ ht n _ => ht.tableDel n

theorem elementsOk_imageElementTable {l : List ImageRecord} (hl : ∀ x ∈ l, recordOk x = true) :
    ElementsOk (imageElementTable l) := by
  have hpairs : ∀ p ∈ (imageElements l).map (fun r => (r.number, elementOf r)), ∃ w, elementOk w = true ∧ p = (w.number, elementOf w) := by
    intro p hp
    obtain ⟨w, hw, rfl⟩ := List.mem_map.mp hp
    exact ⟨w, hl (.element w) (mem_imageElements.mp hw), rfl⟩
  refine ⟨tableOk_tableOf fun p hp => ?_, fun p hp => ?_⟩
  · obtain ⟨w, hw, rfl⟩ := hpairs p hp
    exact number_lt_of_elementOk hw
  · obtain ⟨w, hw, rfl⟩ := hpairs p (mem_tableOf hp)
    rwa [rawElement_elementOf hw]

theorem loadMap_elements (l : List ImageRecord) (s : State) : (loadMap l s).map.elements = s.map.elements := by
  unfold loadMap
  dsimp only
  split
  · rfl
  · split <;> rfl

theorem loadElements_elements (l : List ImageRecord) (s : State) : (loadElements l s).map.elements = imageElementTable l := rfl

theorem loadGood_elements (l : List ImageRecord) (s : State) : (loadGood l s).map.elements = imageElementTable l :=
  (loadMap_elements l _).trans (loadElements_elements l _)

theorem dependsOn_elementLaw : DependsOn [.elements] ElementLaw := by
  intro s t h hs
  have heq : t.map.elements = s.map.elements := h .elements (by simp)
  rw [ElementLaw, heq]; exact hs

theorem elementLaw_loadGood {l : List ImageRecord} (hl : ∀ x ∈ l, recordOk x = true) (s : State) : ElementLaw (loadGood l s) := by
  rw [elementLaw_iff, loadGood_elements]
  exact elementsOk_imageElementTable hl

theorem exec_keeps_elementLaw {c : Instr} {s t : State} (hm : touchesAny [.elements] c = true) (h : ElementLaw s)
    (hc : exec c s = .next t) : ElementLaw t := by
  have hok := (elementLaw_iff s).mp h
  cases c
  case powerOn => cases hc; exact (elementLaw_iff _).mpr elementsOk_nil
  case pinReset => cases hc; exact (elementLaw_iff _).mpr elementsOk_nil
  case mapWrite =>
    refine runRequest_keeps hc h (fun _ => h) fun _ => ?_
    unfold mapWriteOwn
    split
    · refine withBody_keeps _ h fun w => ?_
      unfold mapWriteFields
      split
      · exact h
      · split
        · exact h
        · split
          · exact h
          · next hgood => exact (elementLaw_iff _).mpr (hok.writeElements ((firstBadElement_eq_none_iff _ _).mp hgood))
    · exact h
  case mapDelete =>
    refine runRequest_keeps hc h (fun _ => h) fun _ => ?_
    unfold mapDeleteOwn
    split
    · refine withBody_keeps _ h fun w => ?_
      unfold mapDeleteFields
      split
      · exact h
      · split
        · exact h
        · exact (elementLaw_iff _).mpr (hok.deleteElements w.2)
    · exact h
  case mapClear =>
    refine runRequest_keeps hc h (fun _ => h) fun _ => noBody_keeps h ?_
    unfold mapClearOwn
    split
    · exact (elementLaw_iff _).mpr elementsOk_nil
    · exact h
  case imageLoadCompletion =>
    exact inTurn_keeps hc h (dependsOn_elementLaw.completeLoad (by decide) h
      fun hg => elementLaw_loadGood (fun _ => recordOk_of_imageGood hg) s)
  case resetAll => exact runRequest_keeps hc h (fun _ => h) fun _ => noBody_keeps h ((elementLaw_iff _).mpr elementsOk_nil)
  all_goals cases hm

/-! ## The attachments (R16) -/

/-- The station id of an entry. -/
def stationOf (p : Nat × Attachment) : Word32 := p.2.station

/-- What AttachmentLaw asks of an attachment table. -/
structure AttachmentsOk (t : Table Attachment) : Prop where
  table : tableOk 1024 t = true
  stations : (t.map stationOf).Nodup
  values : ∀ p ∈ t, attachImageOk (rawAttach p.2) = true

theorem attachmentLaw_iff (s : State) : AttachmentLaw s ↔ AttachmentsOk s.map.attachments :=
  ⟨fun ⟨htable, hstations, hvalues⟩ => ⟨htable, hstations, hvalues⟩, fun h => ⟨h.table, h.stations, h.values⟩⟩

theorem attachmentsOk_nil : AttachmentsOk [] := ⟨rfl, List.nodup_nil, fun _ hp => nomatch hp⟩

/-- A change of the validities alone. -/
theorem AttachmentsOk.tableMap {t : Table Attachment} (h : AttachmentsOk t) {f : Attachment → Attachment}
    (hf : ∀ a, rawAttach (f a) = rawAttach a) : AttachmentsOk (tableMap t f) := by
  refine ⟨tableOk_tableMap f h.table, ?_, fun p hp => ?_⟩
  · have hsame : (Machine.tableMap t f).map stationOf = t.map stationOf := by
      rw [Machine.tableMap, List.map_map]
      exact List.map_congr_left fun p _ => congrArg RawAttach.station (hf p.2)
    rw [hsame]
    exact h.stations
  · obtain ⟨q, hq, rfl⟩ := List.mem_map.mp hp
    rw [hf]
    exact h.values q hq

theorem attachmentsOk_allStale {t : Table Attachment} (h : AttachmentsOk t) : AttachmentsOk (allStale t) :=
  h.tableMap fun _ => rfl

theorem attachmentsOk_attachmentPass (elements : Table Element) {t : Table Attachment} (h : AttachmentsOk t) :
    AttachmentsOk (attachmentPass elements t) :=
  h.tableMap fun a => by split <;> rfl

theorem AttachmentsOk.tableDel {t : Table Attachment} (h : AttachmentsOk t) (i : Nat) : AttachmentsOk (tableDel t i) :=
  ⟨tableOk_tableDel i h.table, h.stations.sublist (List.filter_sublist.map _),
    fun p hp => h.values p (List.mem_filter.mp hp).1⟩

theorem AttachmentsOk.tableSet {t : Table Attachment} (h : AttachmentsOk t) {i : Nat} {w : RawAttach} (hi : i < 1024)
    (hw : attachImageOk w = true) (hnew : ∀ p ∈ t, p.1 ≠ i → p.2.station ≠ w.station) :
    AttachmentsOk (tableSet t i (attachmentOf w)) :=
  ⟨tableOk_tableSet _ hi h.table, nodup_map_tableSet stationOf hi h.table h.stations hnew,
    fun p hp => (mem_tableSet hp).elim (fun heq => heq ▸ hw) (h.values p)⟩

/-- The entry of a station id stands in the table with it, and no other does. -/
theorem indexOfStation_eq_some {t : Table Attachment} {station : Word32} {i : Nat} {a : Attachment}
    (h : indexOfStation t station = some (i, a)) : (i, a) ∈ t ∧ a.station = station :=
  ⟨List.mem_of_find?_eq_some h, by simpa using List.find?_some h⟩

theorem indexOfStation_eq_none_iff {t : Table Attachment} {station : Word32} :
    indexOfStation t station = none ↔ ∀ p ∈ t, p.2.station ≠ station := by
  simp [indexOfStation, List.find?_eq_none]

/-- An entry written where its station id already stands. -/
theorem AttachmentsOk.replace {t : Table Attachment} (h : AttachmentsOk t) {i : Nat} {a : Attachment} {w : RawAttach}
    (hfound : indexOfStation t w.station = some (i, a)) (hw : attachImageOk w = true) :
    AttachmentsOk (Machine.tableSet t i (attachmentOf w)) := by
  obtain ⟨hmem, hstation⟩ := indexOfStation_eq_some hfound
  refine h.tableSet (((tableOk_iff 1024 t).mp h.table).2 _ hmem) hw fun p hp hpi heq => hpi ?_
  exact congrArg Prod.fst (eq_of_nodup_map h.stations hp hmem (heq.trans hstation.symm))

/-- An entry written at a free index, its station id standing nowhere. -/
theorem AttachmentsOk.insert {t : Table Attachment} (h : AttachmentsOk t) {i : Nat} {w : RawAttach}
    (habsent : indexOfStation t w.station = none) (hfree : lowestFree t 1024 0 = some i) (hw : attachImageOk w = true) :
    AttachmentsOk (Machine.tableSet t i (attachmentOf w)) := by
  obtain ⟨-, hi, -⟩ := ((lowestFree_iff t 1024 0).1 i).mp hfree
  exact h.tableSet (by omega) hw fun p hp _ => indexOfStation_eq_none_iff.mp habsent p hp

/-- No check of a valid tree finds an element (R12). -/
theorem check_of_validate {t : Table Element} (h : validate t = none) {c : Option Nat × MapReason} (hc : c ∈ mapChecks t) :
    c.1 = none := Option.map_eq_none_iff.mp (List.findSome?_eq_none_iff.mp h c hc)

/-- A tap of a valid tree has at most eight ports (R12, check 7). -/
theorem tapPorts_le_of_validate {t : Table Element} (htable : tableOk 512 t = true) (h : validate t = none) {n : Nat}
    {e : Element} (he : tableGet t n = some e) (htap : e.kind = .tap) : (e.tapPorts.map (·.val)).getD 0 ≤ 8 := by
  have hcheck : lowest t (fun _ r => r.kind == .tap && !portsOk r.tapPorts) = none :=
    check_of_validate h (List.mem_of_getElem? (i := 6) rfl)
  have hports := (lowest_eq_none_iff htable _).mp hcheck n e he
  simp only [htap, beq_self_eq_true, Bool.true_and, Bool.not_eq_false', portsOk, Bool.or_eq_true, beq_iff_eq] at hports
  obtain (hp | hp) | hp := hports <;> rw [hp] <;> decide

/-- What ATTACH_SET accepts on a valid tree is what an image's attachment record may hold. -/
theorem attachImageOk_of_attachOk {t : Table Element} (htable : tableOk 512 t = true) (hvalid : validate t = none)
    {w : RawAttach} (h : attachOk t w = true) : attachImageOk w = true := by
  simp only [attachOk, Bool.and_eq_true] at h
  obtain ⟨⟨hstation, hport⟩, hdrop⟩ := h
  split at hport
  · next e he =>
    obtain ⟨htap, hrange⟩ := Bool.and_eq_true_iff.mp hport
    rw [beq_iff_eq] at htap
    rw [within_eq_true_iff] at hrange
    have := tapPorts_le_of_validate htable hvalid he htap
    simp only [attachImageOk, hstation, hdrop, within_eq_true_iff, Bool.and_true, Bool.true_and]
    omega
  · cases hport

theorem dependsOn_attachmentLaw : DependsOn [.attachments] AttachmentLaw := by
  intro s t h hs
  have heq : t.map.attachments = s.map.attachments := h .attachments (by simp)
  rw [AttachmentLaw, heq]; exact hs

theorem attachmentLaw_removeVoter (i : Nat) {s : State} (h : AttachmentLaw s) : AttachmentLaw (removeVoter i s) :=
  dependsOn_attachmentLaw.keeps (confined_removeVoter i s) (by decide) h

theorem attachmentsOk_imageAttachmentTable {l : List ImageRecord} (hl : ∀ x ∈ l, recordOk x = true)
    (hstations : ((imageAttachments l).map (·.2.station)).Nodup) : AttachmentsOk (imageAttachmentTable l) := by
  have hpairs : ∀ p ∈ (imageAttachments l).map (fun p => (p.1, attachmentOf p.2)),
      ∃ w, p.1 < 1024 ∧ attachImageOk w = true ∧ p.2 = attachmentOf w := by
    intro p hp
    obtain ⟨⟨i, w⟩, hw, rfl⟩ := List.mem_map.mp hp
    obtain ⟨hi, hok⟩ := Bool.and_eq_true_iff.mp (hl (.attachment i w) (mem_imageAttachments.mp hw))
    rw [within_zero_eq_true_iff] at hi
    exact ⟨w, Nat.lt_succ_of_le hi, hok, rfl⟩
  have hbound : ∀ p ∈ (imageAttachments l).map (fun p => (p.1, attachmentOf p.2)), p.1 < 1024 := fun p hp =>
    let ⟨_, hi, _⟩ := hpairs p hp; hi
  refine ⟨tableOk_tableOf hbound, nodup_map_tableOf stationOf hbound ?_, fun p hp => ?_⟩
  · rw [List.map_map]
    exact hstations
  · obtain ⟨w, -, hok, heq⟩ := hpairs p (mem_tableOf hp)
    rw [heq]
    exact hok

/-- No station id stands twice in a good image (R192). -/
theorem stations_of_imageGood {f : Flash} (h : imageGood f = true) :
    ((imageAttachments f.records).map (·.2.station)).Nodup := by
  simp only [imageGood, countsOk, Bool.and_eq_true] at h
  obtain ⟨⟨-, -, hdistinct⟩, -⟩ := h
  exact (distinct_eq_true_iff _).mp hdistinct

theorem attachmentLaw_loadMap {l : List ImageRecord} (h : AttachmentsOk (imageAttachmentTable l)) (s : State) :
    AttachmentLaw (loadMap l s) := by
  rw [attachmentLaw_iff]
  unfold loadMap
  dsimp only
  split
  · exact attachmentsOk_allStale h
  · split
    · exact attachmentsOk_attachmentPass _ h
    · exact h

theorem attachmentLaw_completeClose {s : State} (h : AttachmentLaw s) : AttachmentLaw (completeClose s) := by
  have answered (code : Completion) (body : Body) {t : State} (ht : AttachmentLaw t) : AttachmentLaw (answerHead code body t) :=
    dependsOn_attachmentLaw.keeps (confined_answerHead code body t) (by decide) ht
  have hok := (attachmentLaw_iff s).mp h
  unfold completeClose
  split
  · split
    · exact answered _ _ ((attachmentLaw_iff _).mpr (attachmentsOk_allStale hok))
    · split
      · exact answered _ _ ((attachmentLaw_iff _).mpr (attachmentsOk_attachmentPass _ hok))
      · exact answered _ _ (by exact h)
  · exact h

theorem attachmentLaw_attachSetFields (r : Request) (w : RawAttach) {s : State} (hready : s.map.state = .ready) (hmap : MapLaw s)
    (helements : ElementLaw s) (h : AttachmentLaw s) : AttachmentLaw (attachSetFields r w s) := by
  obtain ⟨hvalid, -⟩ := hmap
  have hok := (attachmentLaw_iff s).mp h
  unfold attachSetFields
  split
  · next hattach =>
    have hw := attachImageOk_of_attachOk helements.1 (hvalid hready).2 hattach
    split
    · next i a hfound =>
      have hset : AttachmentLaw (setAttachments (tableSet s.map.attachments i (attachmentOf w)) s) :=
        (attachmentLaw_iff _).mpr (hok.replace hfound hw)
      dsimp only
      split
      · exact hset
      · exact attachmentLaw_removeVoter i hset
    · next habsent =>
      split
      · next hfree => exact (attachmentLaw_iff _).mpr (hok.insert habsent hfree hw)
      · exact h
  · exact h

theorem exec_keeps_attachmentLaw {c : Instr} {s t : State} (hm : touchesAny [.attachments] c = true) (hmap : MapLaw s)
    (helements : ElementLaw s) (h : AttachmentLaw s) (hc : exec c s = .next t) : AttachmentLaw t := by
  have hok := (attachmentLaw_iff s).mp h
  cases c
  case powerOn => cases hc; exact (attachmentLaw_iff _).mpr attachmentsOk_nil
  case pinReset => cases hc; exact (attachmentLaw_iff _).mpr attachmentsOk_nil
  case mapCloseCompletion => exact inTurn_keeps hc h (attachmentLaw_completeClose h)
  case attachSet =>
    refine runRequest_keeps hc h (fun _ => h) fun _ => ?_
    unfold attachSetOwn
    split
    · next hready => exact withBody_keeps _ h fun w => attachmentLaw_attachSetFields _ w hready hmap helements h
    · exact h
  case attachDelete =>
    refine runRequest_keeps hc h (fun _ => h) fun _ => withBody_keeps _ h fun station => ?_
    unfold attachDeleteOwn
    split
    · next i _ _ => exact attachmentLaw_removeVoter i ((attachmentLaw_iff _).mpr (hok.tableDel i))
    · exact h
  case imageLoadCompletion =>
    exact inTurn_keeps hc h (dependsOn_attachmentLaw.completeLoad (by decide) h fun hg =>
      attachmentLaw_loadMap (attachmentsOk_imageAttachmentTable (fun _ => recordOk_of_imageGood hg) (stations_of_imageGood hg)) _)
  case resetAll => exact runRequest_keeps hc h (fun _ => h) fun _ => noBody_keeps h ((attachmentLaw_iff _).mpr attachmentsOk_nil)
  all_goals cases hm

/-- Settles O53: what is written in a slot passes the checks of its write, and what is marked or removed leaves the rest. -/
theorem stepKeepsElementAndAttachmentLaw : Obligations.StepKeepsElementAndAttachmentLaw := by
  intro s t hmap helements hattachments hstep
  refine ⟨dependsOn_elementLaw.step (fun _ _ _ => exec_keeps_elementLaw) helements hstep, ?_⟩
  have hall : MapLaw s ∧ ElementLaw s ∧ AttachmentLaw s := ⟨hmap, helements, hattachments⟩
  refine step_keeps (P := fun s => MapLaw s ∧ ElementLaw s ∧ AttachmentLaw s) (fun _ _ h => h) (fun _ h => h.2.2)
    (fun c s t ⟨hmap, helements, hattachments⟩ hc => ?_) hall hstep
  cases hm : touchesAny [.attachments] c with
  | true => exact exec_keeps_attachmentLaw hm hmap helements hattachments hc
  | false => exact dependsOn_attachmentLaw.keeps (exec_confined hc) (by simpa [touchesAny] using hm) hattachments

end Sys2Proof.Machine
end

section
/-! The law of the leg tracking table (O54). -/

namespace Sys2Proof.Machine

/-! ## A lawful tracking table -/

/-- The entries that are not PASS. -/
def busyEntries (t : Table TrackEntry) : Table TrackEntry := t.filter (fun p => p.2.busy)

/-- What TrackingLaw asks of the entries. -/
structure TrackOk (t : Table TrackEntry) : Prop where
  table : tableOk 255 t = true
  busy : (busyEntries t).length ≤ 1
  law : ∀ p ∈ t, entryLaw p.2

theorem trackingLaw_iff (s : State) : TrackingLaw s ↔ TrackOk s.tlm.entries :=
  ⟨fun ⟨htable, hbusy, hlaw⟩ => ⟨htable, hbusy, hlaw⟩, fun h => ⟨h.table, h.busy, h.law⟩⟩

theorem trackOk_nil : TrackOk [] := ⟨rfl, Nat.zero_le 1, fun _ hp => nomatch hp⟩

theorem TrackOk.filter {t : Table TrackEntry} (h : TrackOk t) (f : Nat × TrackEntry → Bool) : TrackOk (t.filter f) :=
  ⟨tableOk_filter f h.table, Nat.le_trans ((List.filter_sublist.filter _).length_le) h.busy,
    fun p hp => h.law p (List.mem_filter.mp hp).1⟩

/-- A change that keeps the law of an entry and makes none busy that was not. -/
structure Calms (f : TrackEntry → TrackEntry) : Prop where
  law : ∀ e, entryLaw e → entryLaw (f e)
  busy : ∀ e, (f e).busy = true → e.busy = true

theorem TrackOk.mapPairs {t : Table TrackEntry} (h : TrackOk t) {f : Nat × TrackEntry → Nat × TrackEntry}
    (hkey : ∀ p, (f p).1 = p.1) (hlaw : ∀ p, entryLaw p.2 → entryLaw (f p).2)
    (hbusy : ∀ p, (f p).2.busy = true → p.2.busy = true) : TrackOk (t.map f) := by
  refine ⟨tableOk_map f hkey h.table, ?_, fun p hp => ?_⟩
  · have hle : (t.map f).countP (fun p => p.2.busy) ≤ t.countP (fun p => p.2.busy) := by
      rw [List.countP_map]
      exact List.countP_mono_left fun p _ => hbusy p
    rw [List.countP_eq_length_filter, List.countP_eq_length_filter] at hle
    exact Nat.le_trans hle h.busy
  · obtain ⟨q, hq, rfl⟩ := List.mem_map.mp hp
    exact hlaw q (h.law q hq)

theorem TrackOk.tableModify {t : Table TrackEntry} (h : TrackOk t) (k : Nat) {f : TrackEntry → TrackEntry} (hf : Calms f) :
    TrackOk (tableModify t k f) :=
  h.mapPairs (fun p => by split <;> rfl)
    (fun p hp => by
      split
      · exact hf.law _ hp
      · exact hp)
    (fun p => by
      split
      · exact hf.busy _
      · exact id)

theorem TrackOk.tableMap {t : Table TrackEntry} (h : TrackOk t) {f : TrackEntry → TrackEntry} (hf : Calms f) :
    TrackOk (tableMap t f) :=
  h.mapPairs (fun _ => rfl) (fun _ => hf.law _) (fun _ => hf.busy _)

/-- Rising keys that are all the same are at most one. -/
theorem length_le_one_of_keys {α : Type} {t : Table α} (h : t.Pairwise (fun p q => p.1 < q.1)) {k : Nat}
    (hkeys : ∀ p ∈ t, p.1 = k) : t.length ≤ 1 := by
  match t with
  | [] => exact Nat.zero_le 1
  | [_] => exact Nat.le_refl 1
  | p :: q :: rest =>
    have hlt : p.1 < q.1 := (List.pairwise_cons.mp h).1 q (by simp)
    have hp := hkeys p (by simp)
    have hq := hkeys q (by simp)
    omega

/-- With every entry PASS one entry may leave PASS (R112). -/
theorem TrackOk.tableModify_of_allPass {t : Table TrackEntry} (h : TrackOk t) (hpass : allPass t = true) (k : Nat)
    {f : TrackEntry → TrackEntry} (hf : ∀ e, entryLaw e → entryLaw (f e)) : TrackOk (Machine.tableModify t k f) := by
  have htable := tableOk_tableModify k f h.table
  refine ⟨htable, length_le_one_of_keys (k := k) (((tableOk_iff _ _).mp htable).1.filter _) fun p hp => ?_, fun p hp => ?_⟩
  · obtain ⟨hmem, hbusy⟩ := List.mem_filter.mp hp
    obtain ⟨q, hq, rfl⟩ := List.mem_map.mp hmem
    have hidle : q.2.busy = false := by simpa using List.all_eq_true.mp hpass q hq
    by_cases hk : q.1 = k
    · rw [if_pos hk]; exact hk
    · rw [if_neg hk, hidle] at hbusy; cases hbusy
  · obtain ⟨q, hq, rfl⟩ := List.mem_map.mp hp
    split
    · exact hf _ (h.law q hq)
    · exact h.law q hq

/-- An entry in PASS put at a vacant number leaves the others that are not PASS. -/
theorem busyEntries_tableSet {t : Table TrackEntry} {k : Nat} {e : TrackEntry} (he : e.busy = false)
    (hfree : tableGet t k = none) : busyEntries (tableSet t k e) = busyEntries t := by
  induction t with
  | nil => simp [tableSet, busyEntries, he]
  | cons q rest ih =>
    obtain ⟨j, w⟩ := q
    have hne : j ≠ k := fun heq => by simp [tableGet, heq] at hfree
    have hrest : tableGet rest k = none := by simpa [tableGet, hne] using hfree
    have hfilter := ih hrest
    unfold busyEntries at hfilter ⊢
    unfold tableSet
    rw [if_neg (c := k = j) (fun heq => hne heq.symm)]
    split
    · simp [he]
    · simp only [List.filter_cons, hfilter]

theorem TrackOk.addEntry {t : Table TrackEntry} (h : TrackOk t) {a : Nat} (ha : a < 255) :
    TrackOk (if (tableGet t a).isSome then t else tableSet t a newEntry) := by
  split
  · exact h
  · next hfree =>
    rw [Bool.not_eq_true, Option.isSome_eq_false_iff, Option.isNone_iff_eq_none] at hfree
    refine ⟨tableOk_tableSet _ ha h.table, ?_, fun p hp => ?_⟩
    · rw [busyEntries_tableSet (by rfl) hfree]
      exact h.busy
    · obtain rfl | hold := mem_tableSet hp
      · exact ⟨rfl, rfl, Nat.zero_le 3, rfl⟩
      · exact h.law p hold

theorem TrackOk.rebuild {t : Telemetry} (h : TrackOk t.entries) {addresses : List Nat} (ha : ∀ a ∈ addresses, a < 255) :
    TrackOk (rebuild addresses t).entries :=
  List.foldlRecOn (motive := TrackOk) _ _ ((h.filter _).mapPairs (fun _ => rfl) (fun _ hp => hp) (fun _ hp => hp))
    fun _ ht a hmem => ht.addEntry (ha a hmem)

/-- A leg address of a lawful map is one of 0..254 (R6). -/
theorem legAddresses_lt {t : Table Element} (h : ElementsOk t) : ∀ a ∈ legAddresses t, a < 255 := by
  intro a ha
  obtain ⟨n, -, rfl⟩ := List.mem_map.mp ha
  unfold legOf
  cases he : tableGet t n with
  | none => decide
  | some e =>
    obtain ⟨-, -, -, -, -, -, hleg, -⟩ := (elementOk_iff _).mp (h.records _ (mem_of_tableGet he))
    exact Nat.lt_succ_of_le hleg

/-! ## What the controller's events make of an entry -/

theorem calms_releaseStart (who : Requester) (due : Nat) : Calms (entryAtStart .release who due) := by
  constructor <;> intro e
  · intro h
    unfold entryAtStart
    dsimp only
    split
    · next hbusy =>
      obtain ⟨howner, hdeadline, hfigures⟩ := h
      rw [hbusy] at howner hdeadline
      exact ⟨howner, hdeadline, hfigures⟩
    · exact h
  · unfold entryAtStart
    dsimp only
    split
    · next hbusy => exact fun _ => hbusy
    · exact id

theorem calms_queryStart (who : Requester) (due : Nat) : Calms (entryAtStart .query who due) := ⟨fun _ => id, fun _ => id⟩

theorem entryLaw_stepStart (level hold : Nat) (who : Requester) (due : Nat) {e : TrackEntry} (h : entryLaw e) :
    entryLaw (entryAtStart (.step level hold) who due e) := ⟨rfl, rfl, h.2.2⟩

theorem calms_toPass : Calms TrackEntry.toPass := ⟨fun _ h => ⟨rfl, rfl, h.2.2⟩, fun _ h => nomatch h⟩

/-- RESET_ENGINES leaves an entry busy or PASS as it was (R120). -/
theorem entryAtReset_busy (e : TrackEntry) : (entryAtReset e).busy = e.busy := by
  unfold entryAtReset
  cases hbusy : e.busy <;> simp [TrackEntry.busy]

theorem calms_reset : Calms entryAtReset where
  law e := fun ⟨howner, hdeadline, _, _⟩ =>
    ⟨by rw [entryAtReset_busy]; exact howner, by rw [entryAtReset_busy]; exact hdeadline, Nat.zero_le 3, rfl⟩
  busy e h := entryAtReset_busy e ▸ h

theorem calms_entryAtEnd (c : TlmCommand) (reply : Option Reply) : Calms (entryAtEnd c reply) := by
  have moved {e : TrackEntry} {st st' : TrackState} (he : e.state = st) (hst : st ≠ .pass) (hst' : st' ≠ .pass) (h : entryLaw e) :
      entryLaw { e with state := st' } := by
    obtain ⟨howner, hdeadline, hfigures⟩ := h
    have hbusy : e.busy = true := by simp [TrackEntry.busy, he, hst]
    have hbusy' : TrackEntry.busy { e with state := st' } = true := by simp [TrackEntry.busy, hst']
    rw [hbusy] at howner hdeadline
    exact ⟨by rw [hbusy']; exact howner, by rw [hbusy']; exact hdeadline, hfigures⟩
  constructor <;> intro e
  · intro h
    unfold entryAtEnd
    split
    · split
      · next he => exact moved he (by decide) (by decide) h
      · exact h
    · exact h
    · exact calms_toPass.law e h
    · split
      · next he => exact moved he (by decide) (by decide) h
      · exact h
    · exact h
  · unfold entryAtEnd
    split
    · split
      · next he => exact fun _ => by simp [TrackEntry.busy, he]
      · exact id
    · exact id
    · exact calms_toPass.busy e
    · split
      · next he => exact fun _ => by simp [TrackEntry.busy, he]
      · exact id
    · exact id

theorem calms_reachability (now : Word32) (reply : Option Reply) : Calms (reachability now reply) := by
  constructor <;> intro e
  · rintro ⟨howner, hdeadline, htimeouts, hreachable⟩
    cases reply with
    | some _ => exact ⟨howner, hdeadline, by simp [reachability], by simp [reachability]⟩
    | none =>
      refine ⟨howner, hdeadline, Nat.min_le_left _ _, ?_⟩
      simp only [reachability, hreachable, ← Bool.decide_and, decide_eq_decide]
      omega
  · cases reply <;> exact id

theorem Calms.comp {f g : TrackEntry → TrackEntry} (hf : Calms f) (hg : Calms g) : Calms (fun e => f (g e)) :=
  ⟨fun e h => hf.law _ (hg.law e h), fun e h => hg.busy e (hf.busy _ h)⟩

/-! ## The events -/

/-- The arbiter starts a STEP only while every entry is PASS (R112, R113). -/
theorem mayStart_of_arbiterChoice {t : Telemetry} {who : Requester} {address : Nat} {c : TlmCommand}
    (h : arbiterChoice t = some (who, address, c)) : mayStart t.entries c = true := by
  simp only [arbiterChoice, Option.orElse_eq_orElse, Option.orElse_eq_or, Option.or_eq_some_iff, Option.map_eq_some_iff,
    Option.filter_eq_some_iff, Prod.mk.injEq, beq_iff_eq, Bool.and_eq_true] at h
  obtain ⟨q, ⟨-, hc⟩, -, -, rfl⟩ | ⟨-, ⟨q, ⟨-, hc⟩, -, -, rfl⟩ | ⟨-, q, ⟨-, -, hc⟩, -, -, rfl⟩⟩ := h
  · rw [hc]; rfl
  · exact hc
  · exact hc

theorem trackOk_startTransaction {who : Requester} {address : Nat} {c : TlmCommand} {s : State}
    (hchoice : arbiterChoice s.tlm = some (who, address, c)) (h : TrackingLaw s) :
    TrackingLaw (startTransaction who address c s) := by
  rw [trackingLaw_iff] at h ⊢
  have hstart := mayStart_of_arbiterChoice hchoice
  cases c with
  | step level hold => exact h.tableModify_of_allPass hstart _ fun e => entryLaw_stepStart level hold who _
  | release => exact h.tableModify _ (calms_releaseStart who _)
  | query => exact h.tableModify _ (calms_queryStart who _)

theorem dependsOn_trackingLaw : DependsOn [.entries] TrackingLaw := by
  intro s t h hs
  have heq : t.tlm.entries = s.tlm.entries := h .entries (by simp)
  rw [TrackingLaw, heq]; exact hs

theorem trackingLaw_endTransaction (tx : Transaction) (reply : Option Reply) {s : State} (h : TrackingLaw s) :
    TrackingLaw (endTransaction tx reply s) := by
  rw [trackingLaw_iff] at h
  have changed := h.tableModify tx.address ((calms_reachability s.clocks.plantTime reply).comp (calms_entryAtEnd tx.command reply))
  unfold endTransaction
  dsimp only
  split
  · exact dependsOn_trackingLaw.keeps (searchOutcome_touches tx reply _).confined (by decide)
      ((trackingLaw_iff _).mpr (changed.filter _))
  · exact dependsOn_trackingLaw.keeps (confined_answerHead _ _ _) (by decide) ((trackingLaw_iff _).mpr (changed.filter _))

theorem trackingLaw_examineReply (f : List Byte) {s : State} (h : TrackingLaw s) : TrackingLaw (examineReply f s) := by
  unfold examineReply
  dsimp only
  split
  · exact trackingLaw_endTransaction _ _ (by exact h)
  · exact h

theorem trackingLaw_lapse (address : Nat) {s : State} (h : TrackingLaw s) : TrackingLaw (lapse address s) := by
  unfold lapse
  split
  · exact h
  · split
    · exact h
    · split
      · next due _ _ =>
        have passed : TrackingLaw { reach due s with tlm := dropRetained { (reach due s).tlm with
            entries := tableModify (reach due s).tlm.entries address TrackEntry.toPass } } :=
          (trackingLaw_iff _).mpr ((((trackingLaw_iff s).mp h).tableModify address calms_toPass).filter _)
        dsimp only
        split
        · exact dependsOn_trackingLaw.keeps (searchLapse_touches address _).confined (by decide) passed
        · exact passed
      · exact h

theorem trackingLaw_completeClose {s : State} (helements : ElementLaw s) (h : TrackingLaw s) : TrackingLaw (completeClose s) := by
  have answered (code : Completion) (body : Body) {t : State} (ht : TrackingLaw t) : TrackingLaw (answerHead code body t) :=
    dependsOn_trackingLaw.keeps (confined_answerHead code body t) (by decide) ht
  have hok := (trackingLaw_iff s).mp h
  unfold completeClose
  split
  · split
    · exact answered _ _ ((trackingLaw_iff _).mpr (hok.rebuild (addresses := []) (by simp)))
    · split
      · exact answered _ _ ((trackingLaw_iff _).mpr (hok.rebuild (legAddresses_lt ((elementLaw_iff s).mp helements))))
      · exact answered _ _ (by exact h)
  · exact h

theorem trackingLaw_loadMap (l : List ImageRecord) {s : State} (helements : ElementsOk s.map.elements) (h : TrackingLaw s) :
    TrackingLaw (loadMap l s) := by
  rw [trackingLaw_iff] at h ⊢
  unfold loadMap
  dsimp only
  split
  · exact h.rebuild (addresses := []) (by simp)
  · split
    · exact h.rebuild (legAddresses_lt helements)
    · exact h.rebuild (addresses := []) (by simp)

theorem trackingLaw_loadGood {l : List ImageRecord} (hl : ∀ x ∈ l, recordOk x = true) {s : State} (h : TrackingLaw s) :
    TrackingLaw (loadGood l s) := by
  have hsettings := dependsOn_trackingLaw.keeps (confined_loadSettings l s) (by decide) h
  have hentries := dependsOn_trackingLaw.keeps (confined_loadEntries l _) (by decide) hsettings
  have hslots := dependsOn_trackingLaw.keeps (confined_loadSlots l _) (by decide) hentries
  have helements := dependsOn_trackingLaw.keeps (confined_loadElements l _) (by decide) hslots
  exact dependsOn_trackingLaw.keeps (confined_setStatus .loaded _) (by decide)
    (trackingLaw_loadMap l (elementsOk_imageElementTable hl) helements)

theorem trackingLaw_resetEnginesTelemetry {t : Telemetry} (h : TrackOk t.entries) : TrackOk (resetEnginesTelemetry t).entries :=
  (h.tableMap calms_reset).filter _

theorem exec_keeps_trackingLaw {c : Instr} {s t : State} (hm : touchesAny [.entries] c = true) (helements : ElementLaw s)
    (h : TrackingLaw s) (hc : exec c s = .next t) : TrackingLaw t := by
  have hok := (trackingLaw_iff s).mp h
  cases c
  case powerOn => cases hc; exact (trackingLaw_iff _).mpr trackOk_nil
  case pinReset => cases hc; exact (trackingLaw_iff _).mpr trackOk_nil
  case tlmTransactionStart =>
    obtain rfl | ⟨who, address, c, -, hchoice, rfl⟩ := exec_tlmTransactionStart_cases hc
    · exact h
    · exact trackOk_startTransaction hchoice h
  case tlmReplyFrame f =>
    refine inTurn_keeps hc h ?_
    unfold hearFrame
    split
    · exact trackingLaw_examineReply f h
    · exact h
  case tlmWatchdogExpiry =>
    refine inTurn_keeps hc h ?_
    unfold watchdogExpiry
    split
    · exact h
    · exact trackingLaw_endTransaction _ _ (by exact h)
  case byteHeard b =>
    refine inTurn_keeps hc h ?_
    unfold hearByte
    dsimp only
    split
    · exact h
    · split
      · exact h
      · exact trackingLaw_examineReply _ h
  case lapseDeadline address => exact inTurn_keeps hc h (trackingLaw_lapse address h)
  case mapCloseCompletion => exact inTurn_keeps hc h (trackingLaw_completeClose helements h)
  case imageLoadCompletion =>
    exact inTurn_keeps hc h (dependsOn_trackingLaw.completeLoad (by decide) h
      fun hg => trackingLaw_loadGood (fun _ => recordOk_of_imageGood hg) h)
  case resetEngines =>
    exact runRequest_keeps hc h (fun _ => h) fun _ => noBody_keeps h
      ((trackingLaw_iff _).mpr (trackingLaw_resetEnginesTelemetry hok))
  case resetAll =>
    exact runRequest_keeps hc h (fun _ => h) fun _ => noBody_keeps h
      ((trackingLaw_iff _).mpr ((trackingLaw_resetEnginesTelemetry hok).rebuild (addresses := []) (by simp)))
  all_goals cases hm

/-- Settles O54: a STEP alone makes an entry busy, and it starts only while every entry is PASS. -/
theorem stepKeepsTrackingLaw : Obligations.StepKeepsTrackingLaw := by
  intro s t helements h hstep
  have hall : ElementLaw s ∧ TrackingLaw s := ⟨helements, h⟩
  refine step_keeps (P := fun s => ElementLaw s ∧ TrackingLaw s) (fun _ _ h => h) (fun _ h => h.2)
    (fun c s t ⟨helements, h⟩ hc => ?_) hall hstep
  cases hm : touchesAny [.entries] c with
  | true => exact exec_keeps_trackingLaw hm helements h hc
  | false => exact dependsOn_trackingLaw.keeps (exec_confined hc) (by simpa [touchesAny] using hm) h

end Sys2Proof.Machine
end

section
/-! The law of the request that holds the head (O49): what is in progress is counted by `heldWork`. -/

namespace Sys2Proof.Machine

/-- The parts that hold what may be in progress for the request at the head. -/
def workParts : List Part := [.mapState, .tlmWork, .image]

/-- `heldWork` as a sum of flags. -/
theorem heldWork_eq (s : State) : heldWork s = s.map.closing.toNat + s.tlm.directQueue.length
    + (s.tlm.transaction.any (fun x => x.requester == .direct)).toNat + (s.image.load.any (fun x => x != .startUp)).toNat
    + s.image.saving.isSome.toNat := by
  simp only [heldWork, Bool.toNat, cond_eq_ite]

/-- What is in progress is read off these parts alone. -/
theorem heldWork_eq_of_agree {s t : State} (h : ∀ p ∈ workParts, Agree s t p) : heldWork t = heldWork s := by
  obtain ⟨-, -, hclosing⟩ := h .mapState (by simp [workParts])
  obtain ⟨htransaction, hqueue⟩ := h .tlmWork (by simp [workParts])
  obtain ⟨hload, hsaving⟩ := h .image (by simp [workParts])
  simp only [heldWork_eq, hclosing, htransaction, hqueue, hload, hsaving]

theorem dependsOn_headLaw : DependsOn (.queues :: workParts) HeadLaw := by
  intro s t h hs
  obtain ⟨hrequests, hexecuting, hresponses⟩ := h .queues (by simp)
  obtain ⟨hload, -⟩ := h .image (by simp [workParts])
  have hwork := heldWork_eq_of_agree fun p hp => h p (List.mem_cons_of_mem _ hp)
  simpa only [HeadLaw, hwork, hrequests, hexecuting, hresponses, hload] using hs

theorem HeadLaw.work_eq_zero {s : State} (h : HeadLaw s) (hidle : s.mgmt.executing = false) : heldWork s = 0 := by
  obtain ⟨hwork, -⟩ := h
  rwa [hidle] at hwork

/-- What is in progress keeps the head executing, and there is one such operation (R168). -/
theorem HeadLaw.of_work {s : State} (h : HeadLaw s) {n : Nat} (hn : n + 1 = heldWork s) : n = 0 ∧ s.mgmt.executing = true := by
  obtain ⟨hwork, -⟩ := h
  rw [hwork] at hn
  cases hexecuting : s.mgmt.executing <;> simp [hexecuting] at hn ⊢
  exact hn

theorem HeadLaw.answered {s t : State} (h : HeadLaw s) (hwork : heldWork t = 0) (ha : Answered s t) : HeadLaw t := by
  obtain ⟨hrequests, hexecuting, -⟩ := ha
  obtain ⟨-, -, -, hkinds⟩ := h
  refine ⟨by rw [hwork, hexecuting]; rfl, fun hx => ?_, fun _ => hexecuting, fun r hr => ?_⟩
  · rw [hexecuting] at hx; cases hx
  · rw [hrequests] at hr
    exact hkinds r (List.mem_of_mem_tail hr)

theorem HeadLaw.held {r : Request} {s t : State} (h : HeadLaw s) (hbegin : MayBegin r s) (hwork : heldWork t = 1)
    (hload : t.image.load ≠ some .startUp) (hh : Held s t) : HeadLaw t := by
  obtain ⟨hrequests, hexecuting, hresponses⟩ := hh
  obtain ⟨-, -, -, hkinds⟩ := h
  obtain ⟨hhead, -, hroom⟩ := hbegin
  refine ⟨by rw [hwork, hexecuting]; rfl, fun _ => ⟨?_, by rwa [hresponses]⟩, fun hx => absurd hx hload, ?_⟩
  · rw [hrequests]
    exact fun hnil => by simp [hnil] at hhead
  · rw [hrequests]
    exact hkinds

/-- The operation that held the head ends in an answer. -/
theorem HeadLaw.answerHead {s u : State} (h : HeadLaw s) (hqueues : Agree s u .queues) (hwork : heldWork u + 1 = heldWork s)
    (code : Completion) (body : Body) : HeadLaw (answerHead code body u) := by
  obtain ⟨hzero, hexecuting⟩ := h.of_work hwork
  obtain ⟨hrequests, -, hresponses⟩ := hqueues
  have hroom := h.2.1 hexecuting
  obtain ⟨r, rest, hcons⟩ := List.exists_cons_of_ne_nil hroom.1
  rw [answerHead_cons code body (hrequests.trans hcons), ← answer_eq_replied]
  exact h.answered hzero ⟨congrArg List.tail hrequests, rfl, _, congrArg (· ++ _) hresponses⟩

/-! ## The requests -/

theorem HeadLaw.refuse {r r' : Request} {s : State} (h : HeadLaw s) (hbegin : MayBegin r s) (code : Completion) :
    HeadLaw (refuse r' code s) :=
  h.answered ((heldWork_eq_of_agree fun p _ => by cases p <;> simp_all [Agree, Machine.refuse, Machine.answer, workParts]).trans
    (h.work_eq_zero hbegin.2.1)) (completes_refuse [] r' code s).answered

theorem headLaw_runRequest {r : Request} {own : State → State} {s t : State} (hc : runRequest r own s = .next t) (h : HeadLaw s)
    (hown : Executes r s → HeadLaw (own s)) : HeadLaw t := by
  by_cases hb : MayBegin r s
  · cases ha : admissionRefusal r s with
    | some code => cases (runRequest_of_refusal own hb ha).symm.trans hc; exact h.refuse hb code
    | none =>
      have he : Executes r s := ⟨hb, (admissionRefusal_eq_none_iff r s).mp ha⟩
      cases (runRequest_of_executes own he).symm.trans hc
      exact hown he
  · cases (runRequest_of_not_mayBegin own hb).symm.trans hc; exact h

/-- A request's rule that answers and starts nothing. -/
theorem HeadLaw.completes {r : Request} {parts : List Part} {s t : State} (h : HeadLaw s) (hbegin : MayBegin r s)
    (hparts : ∀ p ∈ workParts, p ∉ Part.queues :: parts) (ht : Completes parts s t) : HeadLaw t :=
  h.answered ((heldWork_eq_of_agree fun p hp => ht.confined.agree p (hparts p hp)).trans (h.work_eq_zero hbegin.2.1)) ht.answered

theorem touchesWork_of_holds {c : Instr} (h : commandHolds c = true) : touchesAny workParts c = true := by
  cases c <;> cases h <;> rfl

/-- A request that changes nothing of what may be in progress is answered at once. -/
theorem headLaw_request {c : Instr} {r : Request} {s t : State} (hr : c.request = some r)
    (hm : touchesAny workParts c = false) (h : HeadLaw s) (hc : exec c s = .next t) : HeadLaw t := by
  obtain rfl | ⟨hbegin, hdone⟩ | ⟨-, hholds, -, -⟩ := exec_request hr hc
  · exact h
  · exact h.completes hbegin (by simpa [touchesAny, commandTouches, hr] using hm) hdone
  · rw [touchesWork_of_holds hholds] at hm; cases hm

theorem load_ne_startUp {s : State} (h : HeadLaw s) (hexecuting : s.mgmt.executing = true) : s.image.load ≠ some .startUp := by
  obtain ⟨-, -, hstart, -⟩ := h
  intro hl
  rw [hstart hl] at hexecuting
  cases hexecuting

/-- A request other than STATUS_READ executes while no load runs (R170). -/
theorem load_none_of_executes {r : Request} {s : State} (h : HeadLaw s) (he : Executes r s)
    (hbody : r.body.fitsKind 0x01 = false) : s.image.load = none := by
  obtain ⟨⟨hhead, -, -⟩, -, -, -, -, hload⟩ := he
  obtain ⟨-, -, -, hkinds⟩ := h
  cases hl : s.image.load with
  | none => rfl
  | some who =>
    have hfits := hkinds r (List.mem_of_mem_head? hhead)
    rw [hload (by rw [hl]; rfl), hbody] at hfits
    cases hfits

theorem directStepKind_ne : directStepKind ≠ 0x01 := by
  unfold directStepKind
  split
  · decide
  · next hfree =>
    intro heq
    rw [heq] at hfree
    exact hfree (by decide)

theorem HeadLaw.placeDirect {r : Request} {s : State} (h : HeadLaw s) (he : Executes r s) (hload : s.image.load = none)
    (address : Nat) (c : TlmCommand) (tag : Word16) : HeadLaw (placeDirect address c tag s) := by
  have hzero := h.work_eq_zero he.1.2.1
  refine h.held he.1 ?_ (by simp [Machine.placeDirect, hold, hload]) ⟨rfl, rfl, rfl⟩
  simp only [heldWork_eq, Machine.placeDirect, hold, List.length_append, List.length_singleton] at hzero ⊢
  omega

theorem heldWork_openMap (s : State) : heldWork (openMap s) = heldWork s := by
  unfold openMap leaveReady
  split <;> rfl

theorem HeadLaw.mapOpenOwn {r : Request} {s : State} (h : HeadLaw s) (hbegin : MayBegin r s) : HeadLaw (mapOpenOwn r s) := by
  unfold Machine.mapOpenOwn
  split
  · exact h.refuse hbegin _
  · split
    · exact h.refuse hbegin _
    · split
      · exact h.refuse hbegin _
      · exact h.answered ((heldWork_openMap s).trans (h.work_eq_zero hbegin.2.1))
          ((confined_openMap s).completes (by decide) ..).answered

theorem HeadLaw.mapCloseOwn {r : Request} {s : State} (h : HeadLaw s) (he : Executes r s) (hload : s.image.load = none) :
    HeadLaw (mapCloseOwn r s) := by
  have hzero := h.work_eq_zero he.1.2.1
  unfold Machine.mapCloseOwn
  split
  · exact h.refuse he.1 _
  · split
    · exact h.refuse he.1 _
    · refine h.held he.1 ?_ (by simp [beginClose, hold, hload]) ⟨rfl, rfl, rfl⟩
      simp only [heldWork_eq, beginClose, hold, Bool.toNat_true] at hzero ⊢
      omega

theorem HeadLaw.imageLoadOwn {r : Request} {s : State} (h : HeadLaw s) (he : Executes r s) (hload : s.image.load = none) :
    HeadLaw (imageLoadOwn r s) := by
  have hzero := h.work_eq_zero he.1.2.1
  unfold Machine.imageLoadOwn
  split
  · exact h.refuse he.1 _
  · split
    · exact h.refuse he.1 _
    · refine h.held he.1 ?_ (by simp [beginLoad, hold]) ⟨rfl, rfl, rfl⟩
      simp only [heldWork_eq, beginLoad, hold, hload, Option.any_some, Option.any_none, Bool.toNat_false,
        show (LoadOrigin.request != .startUp) = true from rfl, Bool.toNat_true] at hzero ⊢
      omega

theorem HeadLaw.imageSaveOwn {r : Request} {s : State} (h : HeadLaw s) (he : Executes r s) (hload : s.image.load = none) :
    HeadLaw (imageSaveOwn r s) := by
  have hzero := h.work_eq_zero he.1.2.1
  unfold Machine.imageSaveOwn
  split
  · exact h.refuse he.1 _
  · refine h.held he.1 ?_ (by simp [beginSave, hold, hload]) ⟨rfl, rfl, rfl⟩
    simp only [heldWork_eq, beginSave, hold, Option.isSome_some, Bool.toNat_true] at hzero ⊢
    omega

theorem HeadLaw.resetEnginesOwn {r : Request} {s : State} (h : HeadLaw s) (hbegin : MayBegin r s) :
    HeadLaw (resetEnginesOwn r s) := by
  have hzero := h.work_eq_zero hbegin.2.1
  refine h.answered ?_ (completes_resetEnginesOwn r s).answered
  simp only [heldWork_eq, Machine.resetEnginesOwn, answer, resetEnginesState, resetEnginesTelemetry, dropRetained, List.length_nil,
    Option.any_none, Bool.toNat_false] at hzero ⊢
  omega

theorem HeadLaw.resetAllOwn {r : Request} {s : State} (h : HeadLaw s) (hbegin : MayBegin r s) : HeadLaw (resetAllOwn s) := by
  have hzero := h.work_eq_zero hbegin.2.1
  refine h.held hbegin ?_ (by simp [Machine.resetAllOwn, resetAllState, hold]) ⟨rfl, rfl, rfl⟩
  simp only [heldWork_eq, Machine.resetAllOwn, resetAllState, resetEnginesState, resetEnginesTelemetry, dropRetained, rebuild, hold,
    powerOnMap, List.length_nil, Option.any_none, Option.any_some, Bool.toNat_false,
    show (LoadOrigin.resetAll != .startUp) = true from rfl, Bool.toNat_true] at hzero ⊢
  omega

/-! ## The transactions -/

theorem headLaw_startTransaction {who : Requester} {address : Nat} {c : TlmCommand} {s : State} (h : HeadLaw s)
    (hfree : s.tlm.transaction = none) (hchoice : arbiterChoice s.tlm = some (who, address, c)) :
    HeadLaw (startTransaction who address c s) := by
  have hwork : heldWork (startTransaction who address c s) = heldWork s := by
    cases who with
    | search => simp [heldWork_eq, startTransaction, hfree]
    | direct =>
      have hne : s.tlm.directQueue ≠ [] := by
        intro hnil
        simp [arbiterChoice, hnil, Option.map_eq_some_iff] at hchoice
      obtain ⟨d, rest, hd⟩ := List.exists_cons_of_ne_nil hne
      simp only [heldWork_eq, startTransaction, hfree, hd, List.tail_cons, List.length_cons, Option.any_some, Option.any_none,
        if_true, beq_self_eq_true, reduceCtorEq, if_false, Bool.toNat_true, Bool.toNat_false]
      omega
  obtain ⟨hs, hrest⟩ := h
  exact ⟨hwork.trans hs, hrest⟩

theorem headLaw_endTransaction {tx : Transaction} (reply : Option Reply) {s : State} (h : HeadLaw s)
    (htx : s.tlm.transaction = some tx) : HeadLaw (endTransaction tx reply s) := by
  unfold endTransaction
  dsimp only
  split
  · next hwho =>
    refine dependsOn_headLaw.keeps (searchOutcome_touches tx reply _).confined (by decide) ?_
    obtain ⟨hs, hrest⟩ := h
    refine ⟨Eq.trans ?_ hs, hrest⟩
    simp [heldWork_eq, dropRetained, htx, hwho]
  · next hwho =>
    refine h.answerHead (by exact ⟨rfl, rfl, rfl⟩) ?_ _ _
    simp only [heldWork_eq, dropRetained, htx, hwho, Option.any_some, Option.any_none, beq_self_eq_true, Bool.toNat_true,
      Bool.toNat_false]
    omega

theorem headLaw_examineReply (f : List Byte) {s : State} (h : HeadLaw s) : HeadLaw (examineReply f s) := by
  unfold examineReply
  dsimp only
  split
  · next tx x hbind =>
    obtain ⟨y, htx, hy⟩ := Option.bind_eq_some_iff.mp hbind
    obtain ⟨z, -, hpair⟩ := Option.map_eq_some_iff.mp hy
    cases hpair
    exact headLaw_endTransaction _ (by exact h) htx
  · exact h

/-! ## The completions -/

theorem headLaw_completeClose {s : State} (h : HeadLaw s) : HeadLaw (completeClose s) := by
  unfold completeClose
  split
  · next hclosing =>
    have closed {u : State} (code : Completion) (body : Body) (hmgmt : u.mgmt = s.mgmt)
        (htransaction : u.tlm.transaction = s.tlm.transaction) (hqueue : u.tlm.directQueue = s.tlm.directQueue)
        (himage : u.image = s.image) (hclosed : u.map.closing = false) :
        HeadLaw (answerHead code body u) := by
      refine h.answerHead (by simp [Agree, hmgmt]) ?_ code body
      simp only [heldWork_eq, htransaction, hqueue, himage, hclosed, hclosing, Bool.toNat_true, Bool.toNat_false]
      omega
    split
    · apply closed <;> rfl
    · split
      · apply closed <;> rfl
      · apply closed <;> rfl
  · exact h

theorem headLaw_answerLoad {who : LoadOrigin} {s u : State} (h : HeadLaw s) (hload : s.image.load = some who)
    (hqueues : Agree s u .queues) (hnone : u.image.load = none)
    (hwork : heldWork u + (who != .startUp).toNat = heldWork s) : HeadLaw (answerLoad who u) := by
  unfold answerLoad
  split
  · obtain ⟨hs, hroom, hstart, hkinds⟩ := h
    obtain ⟨hrequests, hexecuting, hresponses⟩ := hqueues
    exact ⟨by rw [hexecuting]; exact hwork.trans hs, by rwa [hexecuting, hrequests, hresponses],
      by rw [hnone]; exact nofun, by rwa [hrequests]⟩
  · exact h.answerHead hqueues hwork _ _
  · split
    · exact h.answerHead hqueues hwork _ _
    · exact h.answerHead hqueues hwork _ _

theorem loadMap_closing (l : List ImageRecord) (s : State) : (loadMap l s).map.closing = s.map.closing := by
  unfold loadMap
  dsimp only
  split
  · rfl
  · split <;> rfl

theorem loadElements_closing (l : List ImageRecord) (s : State) : (loadElements l s).map.closing = s.map.closing := by
  unfold loadElements leaveReady
  dsimp only
  split <;> rfl

/-- The state after the first three steps of a good image's load: the tables that are not the map's. -/
def loadTables (l : List ImageRecord) (s : State) : State := loadSlots l (loadEntries l (loadSettings l s))

def tableParts : List Part :=
  [.settings, .records, .reportQueue, .channels, .bands, .corrections, .alarms, .slots]

theorem confined_loadTables (l : List ImageRecord) (s : State) : Confined tableParts s (loadTables l s) :=
  (((confined_loadSettings l s).mono (by simp [tableParts])).trans ((confined_loadEntries l _).mono (by simp [tableParts]))).trans
    ((confined_loadSlots l _).mono (by simp [tableParts]))

theorem loadGood_eq (l : List ImageRecord) (s : State) :
    loadGood l s = setStatus .loaded (loadMap l (loadElements l (loadTables l s))) := rfl

theorem loadGood_closing (l : List ImageRecord) (s : State) : (loadGood l s).map.closing = s.map.closing := by
  obtain ⟨-, -, hclosing⟩ := (confined_loadTables l s).agree .mapState (by decide)
  rw [loadGood_eq]
  exact ((loadMap_closing l _).trans (loadElements_closing l _)).trans hclosing

theorem loadGood_saving (l : List ImageRecord) (s : State) : (loadGood l s).image.saving = s.image.saving := by
  obtain ⟨-, htables⟩ := (confined_loadTables l s).agree .image (by decide)
  obtain ⟨-, helements⟩ := (confined_loadElements l (loadTables l s)).agree .image (by decide)
  obtain ⟨-, hmap⟩ := (confined_loadMap l (loadElements l (loadTables l s))).agree .image (by decide)
  exact (hmap.trans helements).trans htables

theorem headLaw_completeLoad {s : State} (h : HeadLaw s) : HeadLaw (completeLoad s) := by
  obtain ⟨-, heq⟩ | ⟨who, hload, ⟨-, heq⟩ | ⟨-, heq⟩⟩ := completeLoad_cases s <;> rw [heq]
  · exact h
  · have hconfined := confined_loadGood s.image.flash.records s
    obtain ⟨htransaction, hqueue⟩ := hconfined.agree .tlmWork (by decide)
    refine headLaw_answerLoad h hload (hconfined.agree .queues (by decide)) rfl ?_
    simp only [heldWork_eq, loadGood_closing, loadGood_saving, htransaction, hqueue, hload, Option.any_some,
      show (loadGood s.image.flash.records s).image.load = none from rfl, Option.any_none, Bool.toNat_false]
    omega
  · refine headLaw_answerLoad h hload ⟨rfl, rfl, rfl⟩ rfl ?_
    simp only [heldWork_eq, setStatus, hload, Option.any_some, Option.any_none, Bool.toNat_false]
    omega

theorem headLaw_completeSave {s : State} (h : HeadLaw s) : HeadLaw (completeSave s) := by
  unfold completeSave
  split
  · exact h
  · next l hsaving =>
    refine h.answerHead (by exact ⟨rfl, rfl, rfl⟩) ?_ _ _
    simp only [heldWork_eq, endSave, hsaving, Option.isSome_some, Option.isSome_none, Bool.toNat_true, Bool.toNat_false]

/-! ## The link's events at the queues -/

theorem headLaw_takeRequest (f : Sys2Proof.Frame) (body : ReqBody) {s : State} (h : HeadLaw s) : HeadLaw (takeRequest f body s) := by
  unfold takeRequest
  split
  · next hc =>
    obtain ⟨-, -, hfits⟩ := hc
    obtain ⟨hwork, hroom, hstart, hkinds⟩ := h
    unfold handRequest
    dsimp only
    split
    · refine ⟨hwork, fun hx => ⟨by simp, (hroom hx).2⟩, hstart, fun r hr => ?_⟩
      obtain hold | hnew := List.mem_append.mp hr
      · exact hkinds r hold
      · rw [List.mem_singleton.mp hnew]
        exact hfits
    · exact ⟨hwork, hroom, hstart, hkinds⟩
  · exact h

theorem hubChoice_mgmt (s : State) : (hubChoice s).mgmt = s.mgmt
    ∨ ∃ x, s.mgmt.responses = x :: (hubChoice s).mgmt.responses
      ∧ (hubChoice s).mgmt.requests = s.mgmt.requests ∧ (hubChoice s).mgmt.executing = s.mgmt.executing := by
  unfold hubChoice
  dsimp only
  split
  · next x _ hresponses =>
    split
    · exact .inr ⟨x, hresponses, rfl, rfl⟩
    · split <;> exact .inl rfl
  · split
    · exact .inl rfl
    · exact .inl rfl
    · exact .inl rfl
  · exact .inl rfl
  · exact .inl rfl

theorem headLaw_hubChoice {s : State} (h : HeadLaw s) : HeadLaw (hubChoice s) := by
  have hconfined := confined_hubChoice s
  obtain hsame | ⟨x, hresponses, hrequests, hexecuting⟩ := hubChoice_mgmt s
  · exact dependsOn_headLaw s _ (fun p hp => by
      by_cases hq : p = .queues
      · simp [hq, Agree, hsame]
      · exact hconfined.agree p (by simp [workParts] at hp; rcases hp with rfl | rfl | rfl | rfl <;> simp_all)) h
  · obtain ⟨hwork, hroom, hstart, hkinds⟩ := h
    have hsame := heldWork_eq_of_agree (s := s) (t := hubChoice s) fun p hp =>
      hconfined.agree p (by simp [workParts] at hp; rcases hp with rfl | rfl | rfl <;> decide)
    obtain ⟨hload, -⟩ := hconfined.agree .image (by decide)
    rw [hresponses] at hroom
    refine ⟨by rw [hsame, hexecuting]; exact hwork, fun hx => ?_, fun hl => ?_, by rwa [hrequests]⟩
    · rw [hexecuting] at hx
      obtain ⟨hne, hlt⟩ := hroom hx
      exact ⟨by rwa [hrequests], Nat.lt_of_succ_lt hlt⟩
    · rw [hexecuting]
      exact hstart (hload ▸ hl)

/-! ## Every command -/

theorem headLaw_powerOn (strap : Byte) (flash : Flash) (pending : List Instr) : HeadLaw (State.powerOn strap flash pending) := by
  simp [HeadLaw, heldWork_eq, State.powerOn, powerOnMgmt, powerOnMap, powerOnTelemetry, powerOnImage]

theorem exec_keeps_headLaw {c : Instr} {s t : State} (hm : touchesAny (.queues :: workParts) c = true) (h : HeadLaw s)
    (hc : exec c s = .next t) : HeadLaw t := by
  cases hw : touchesAny workParts c with
  | false =>
    cases hr : c.request with
    | some r => exact headLaw_request hr hw h hc
    | none =>
      have hothers : (touchesAny (.queues :: workParts) c && !touchesAny workParts c && c.request.isNone) = true := by
        rw [hm, hw, hr]; rfl
      cases c
      case mgmtReq f body => exact inTurn_keeps hc h (headLaw_takeRequest f body h)
      case hubTxChoice =>
        refine inTurn_keeps hc h ?_
        split
        · exact headLaw_hubChoice h
        · exact h
      all_goals cases hothers
  | true =>
    cases c
    case powerOn => cases hc; exact headLaw_powerOn ..
    case pinReset => cases hc; exact headLaw_powerOn ..
    case tlmTransactionStart =>
      obtain rfl | ⟨who, address, c, hfree, hchoice, rfl⟩ := exec_tlmTransactionStart_cases hc
      · exact h
      · exact headLaw_startTransaction h hfree hchoice
    case tlmReplyFrame f =>
      refine inTurn_keeps hc h ?_
      unfold hearFrame
      split
      · exact headLaw_examineReply f h
      · exact h
    case byteHeard b =>
      refine inTurn_keeps hc h ?_
      unfold hearByte
      dsimp only
      split
      · exact h
      · split
        · exact h
        · exact headLaw_examineReply _ h
    case tlmWatchdogExpiry =>
      refine inTurn_keeps hc h ?_
      unfold watchdogExpiry
      split
      · exact h
      · next htx => exact headLaw_endTransaction _ (by exact h) htx
    case mapOpen =>
      exact headLaw_runRequest hc h fun he => noBody_keeps (h.refuse he.1 _) (h.mapOpenOwn he.1)
    case mapClose =>
      exact headLaw_runRequest hc h fun he => noBody_keeps (h.refuse he.1 _) (h.mapCloseOwn he (load_none_of_executes h he rfl))
    case mapCloseCompletion => exact inTurn_keeps hc h (headLaw_completeClose h)
    case directStep =>
      refine headLaw_runRequest hc h fun he => withBody_keeps _ (h.refuse he.1 _) fun w => ?_
      unfold directStepOwn
      split
      · exact h.refuse he.1 _
      · exact h.placeDirect he (load_none_of_executes h he (beq_eq_false_iff_ne.mpr directStepKind_ne)) _ _ _
    case directRelease =>
      refine headLaw_runRequest hc h fun he => withBody_keeps _ (h.refuse he.1 _) fun w => ?_
      unfold directReleaseOwn
      split
      · exact h.refuse he.1 _
      · exact h.placeDirect he (load_none_of_executes h he rfl) _ _ _
    case directQuery =>
      refine headLaw_runRequest hc h fun he => withBody_keeps _ (h.refuse he.1 _) fun w => ?_
      unfold directQueryOwn
      split
      · exact h.refuse he.1 _
      · exact h.placeDirect he (load_none_of_executes h he rfl) _ _ _
    case imageLoad =>
      exact headLaw_runRequest hc h fun he => noBody_keeps (h.refuse he.1 _) (h.imageLoadOwn he (load_none_of_executes h he rfl))
    case imageSave =>
      exact headLaw_runRequest hc h fun he => noBody_keeps (h.refuse he.1 _) (h.imageSaveOwn he (load_none_of_executes h he rfl))
    case imageLoadCompletion => exact inTurn_keeps hc h (headLaw_completeLoad h)
    case imageSaveCompletion => exact inTurn_keeps hc h (headLaw_completeSave h)
    case resetEngines =>
      exact headLaw_runRequest hc h fun he => noBody_keeps (h.refuse he.1 _) (h.resetEnginesOwn he.1)
    case resetAll =>
      exact headLaw_runRequest hc h fun he => noBody_keeps (h.refuse he.1 _) (h.resetAllOwn he.1)
    all_goals cases hw

/-- Settles O49: each operation that begins holds the head, each that ends answers it. -/
theorem stepKeepsHeadLaw : Obligations.StepKeepsHeadLaw := fun _ _ hs hstep =>
  dependsOn_headLaw.step (fun _ _ _ => exec_keeps_headLaw) hs hstep

end Sys2Proof.Machine
end

section
/-! The laws of the map's states (O52). -/

namespace Sys2Proof.Machine

/-! ## READY, EMPTY and EDIT (R2, R10 to R12) -/

theorem dependsOn_mapLaw : DependsOn [.mapState, .elements] MapLaw := by
  intro s t h hs
  obtain ⟨hstate, herror, hclosing⟩ := h .mapState (by simp)
  have helements : t.map.elements = s.map.elements := h .elements (by simp)
  simpa only [MapLaw, hstate, herror, hclosing, helements] using hs

/-- A map in EDIT is held to nothing more. -/
theorem mapLaw_of_edit {s : State} (h : s.map.state = .edit) : MapLaw s := by
  refine ⟨fun hx => ?_, fun hx => ?_, fun _ => h, fun _ => h⟩ <;> rw [h] at hx <;> cases hx

theorem mapLaw_of_empty {s : State} (hstate : s.map.state = .empty) (helements : s.map.elements = [])
    (herror : s.map.error = none) (hclosing : s.map.closing = false) : MapLaw s := by
  refine ⟨fun hx => ?_, fun _ => helements, fun hx => ?_, fun hx => ?_⟩
  · rw [hstate] at hx; cases hx
  · rw [herror] at hx; cases hx
  · rw [hclosing] at hx; cases hx

theorem mapLaw_of_ready {s : State} (hstate : s.map.state = .ready) (helements : s.map.elements ≠ [])
    (hvalid : validate s.map.elements = none) (herror : s.map.error = none) (hclosing : s.map.closing = false) : MapLaw s := by
  refine ⟨fun _ => ⟨helements, hvalid⟩, fun hx => ?_, fun hx => ?_, fun hx => ?_⟩
  · rw [hstate] at hx; cases hx
  · rw [herror] at hx; cases hx
  · rw [hclosing] at hx; cases hx

theorem mapLaw_completeClose {s : State} (h : MapLaw s) : MapLaw (completeClose s) := by
  have answered (code : Completion) (body : Body) {u : State} (hu : MapLaw u) : MapLaw (answerHead code body u) :=
    dependsOn_mapLaw.keeps (confined_answerHead code body u) (by decide) hu
  unfold completeClose
  split
  · next hclosing =>
    split
    · next hnil => exact answered _ _ (mapLaw_of_empty rfl hnil rfl rfl)
    · next hne =>
      split
      · next hvalid => exact answered _ _ (mapLaw_of_ready rfl hne hvalid rfl rfl)
      · exact answered _ _ (mapLaw_of_edit (h.2.2.2 hclosing))
  · exact h

/-- No close runs while a load does: each would hold the head (R168), and none does during a start-up load (R170). -/
theorem closing_false_of_load {s : State} (h : HeadLaw s) {who : LoadOrigin} (hload : s.image.load = some who) :
    s.map.closing = false := by
  obtain ⟨hwork, -, hstart, -⟩ := h
  rw [heldWork_eq, hload, Option.any_some] at hwork
  cases hclosing : s.map.closing with
  | false => rfl
  | true =>
    rw [hclosing, Bool.toNat_true] at hwork
    by_cases hwho : who = .startUp
    · rw [hstart (hwho ▸ hload)] at hwork
      simp at hwork
    · rw [show (who != .startUp) = true from bne_iff_ne.mpr hwho, Bool.toNat_true] at hwork
      split at hwork <;> omega

theorem mapLaw_loadMap (l : List ImageRecord) {s : State} (hclosing : s.map.closing = false) : MapLaw (loadMap l s) := by
  unfold loadMap
  dsimp only
  split
  · next hnil => exact mapLaw_of_empty rfl hnil rfl hclosing
  · next hne =>
    split
    · next hvalid => exact mapLaw_of_ready rfl hne hvalid rfl hclosing
    · exact mapLaw_of_edit rfl

theorem mapLaw_completeLoad {s : State} (hhead : HeadLaw s) (h : MapLaw s) : MapLaw (completeLoad s) := by
  have answered (who : LoadOrigin) {u : State} (hu : MapLaw u) : MapLaw (answerLoad who u) :=
    dependsOn_mapLaw.keeps (confined_answerLoad who u) (by decide) hu
  obtain ⟨-, heq⟩ | ⟨who, hload, ⟨-, heq⟩ | ⟨-, heq⟩⟩ := completeLoad_cases s <;> rw [heq]
  · exact h
  · have hclosing : (loadElements s.image.flash.records (loadTables s.image.flash.records s)).map.closing = false := by
      rw [loadElements_closing]
      obtain ⟨-, -, htables⟩ := (confined_loadTables s.image.flash.records s).agree .mapState (by decide)
      exact htables.trans (closing_false_of_load hhead hload)
    exact answered who (mapLaw_loadMap s.image.flash.records hclosing)
  · exact answered who h

theorem exec_keeps_mapLaw {c : Instr} {s t : State} (hm : touchesAny [.mapState, .elements] c = true) (hhead : HeadLaw s)
    (h : MapLaw s) (hc : exec c s = .next t) : MapLaw t := by
  cases c
  case powerOn => cases hc; exact mapLaw_of_empty rfl rfl rfl rfl
  case pinReset => cases hc; exact mapLaw_of_empty rfl rfl rfl rfl
  case mapOpen =>
    refine runRequest_keeps hc h (fun _ => h) fun _ => noBody_keeps h ?_
    unfold mapOpenOwn
    split
    · exact h
    · split
      · exact h
      · split
        · exact h
        · exact mapLaw_of_edit rfl
  case mapWrite =>
    refine runRequest_keeps hc h (fun _ => h) fun _ => ?_
    unfold mapWriteOwn
    split
    · next hedit =>
      refine withBody_keeps _ h fun w => ?_
      unfold mapWriteFields
      split
      · exact h
      · split
        · exact h
        · split
          · exact h
          · exact mapLaw_of_edit hedit
    · exact h
  case mapDelete =>
    refine runRequest_keeps hc h (fun _ => h) fun _ => ?_
    unfold mapDeleteOwn
    split
    · next hedit =>
      refine withBody_keeps _ h fun w => ?_
      unfold mapDeleteFields
      split
      · exact h
      · split
        · exact h
        · exact mapLaw_of_edit hedit
    · exact h
  case mapClear =>
    refine runRequest_keeps hc h (fun _ => h) fun _ => noBody_keeps h ?_
    unfold mapClearOwn
    split
    · next hedit => exact mapLaw_of_edit hedit
    · exact h
  case mapClose =>
    refine runRequest_keeps hc h (fun _ => h) fun _ => noBody_keeps h ?_
    unfold mapCloseOwn
    split
    · exact h
    · next hedit =>
      split
      · exact h
      · exact mapLaw_of_edit (Classical.not_not.mp hedit)
  case mapCloseCompletion => exact inTurn_keeps hc h (mapLaw_completeClose h)
  case imageLoadCompletion => exact inTurn_keeps hc h (mapLaw_completeLoad hhead h)
  case resetAll =>
    exact runRequest_keeps hc h (fun _ => h) fun _ => noBody_keeps h (mapLaw_of_empty rfl rfl rfl rfl)
  all_goals cases hm

/-! ## An empty tally and no search outside READY (R4), no search during a load (R194) -/

theorem dependsOn_readyLaw : DependsOn [.mapState, .records, .search, .image] ReadyLaw := by
  intro s t h hs
  obtain ⟨hstate, -, -⟩ := h .mapState (by simp)
  have hrecords : t.tally.records = s.tally.records := h .records (by simp)
  have hsearch : t.search = s.search := h .search (by simp)
  obtain ⟨hload, -⟩ := h .image (by simp)
  simpa only [ReadyLaw, hstate, hrecords, hsearch, hload] using hs

/-- No record enters an empty tally, and no search starts. -/
structure Stills (s t : State) : Prop where
  records : s.tally.records = [] → t.tally.records = []
  record : s.search.record = none → t.search.record = none

theorem ReadyLaw.of_stills {s t : State} (h : ReadyLaw s) (hstate : t.map.state = s.map.state)
    (hload : t.image.load = s.image.load) (hst : Stills s t) : ReadyLaw t := by
  obtain ⟨hready, hloading⟩ := h
  refine ⟨fun hx => ?_, fun hx => ?_⟩
  · obtain ⟨hrecords, hrecord⟩ := hready (hstate ▸ hx)
    exact ⟨hst.records hrecords, hst.record hrecord⟩
  · rw [hload] at hx
    exact hst.record (hloading hx)

theorem SearchMove.stills {s t : State} (h : SearchMove s t) : Stills s t := by
  obtain ⟨-, hmoved, hflags, -⟩ := h
  refine ⟨fun hnil => ?_, fun hnone => ?_⟩
  · obtain hsame | ⟨table, head, hmark⟩ := hflags
    · rw [hsame, hnil]
    · rw [hmark, hnil]; rfl
  · obtain ⟨-, hrecord⟩ | ⟨r, x, hr, -⟩ := hmoved
    · rw [hnone] at hrecord
      exact Option.map_eq_none_iff.mp hrecord
    · rw [hnone] at hr; cases hr

/-- Votes are cast in a READY map alone (R31). -/
theorem ready_of_handOffCheck {a : Analysis} {station : Word32} {index element port : Nat} {s : State} {drop : Nat}
    (h : handOffCheck a station index element port s = .inr drop) : s.map.state = .ready := by
  unfold handOffCheck at h
  split at h
  · cases h
  · next hready => exact Classical.not_not.mp (not_or.mp hready).2

theorem readyLaw_completeAnalysis {s : State} (h : ReadyLaw s) : ReadyLaw (completeAnalysis s) := by
  unfold completeAnalysis
  split
  · split
    · exact h
    · split
      · exact h
      · next hcheck =>
        have hready := ready_of_handOffCheck hcheck
        exact ⟨fun hx => absurd hready hx, h.2⟩
  · exact h

theorem evaluateAll_records_nil {s : State} (h : s.tally.records = []) : (evaluateAll s).tally.records = [] := by
  simp [evaluateAll, evaluateRecords_some, h]

theorem removeVoter_records_nil (i : Nat) {s : State} (h : s.tally.records = []) : (removeVoter i s).tally.records = [] := by
  simp [removeVoter_eq, withoutVoter, h]

theorem applySettings_records_nil (n : Settings) {s : State} (h : s.tally.records = []) :
    (applySettings n s).tally.records = [] := by
  unfold applySettings
  dsimp only
  split
  · exact h
  · exact evaluateAll_records_nil (by exact h)

theorem loadTables_records_nil (l : List ImageRecord) {s : State} (h : s.tally.records = []) :
    (loadTables l s).tally.records = [] := by
  have hsettings : (loadSettings l s).tally.records = [] :=
    loadSettings_keeps (P := fun t => t.tally.records = []) (fun _ _ _ ht => applySettings_records_nil _ ht) h
  have hentries : (loadEntries l (loadSettings l s)).tally.records = (loadSettings l s).tally.records :=
    (confined_loadEntries l _).agree .records (by decide)
  have hslots : (loadTables l s).tally.records = (loadEntries l (loadSettings l s)).tally.records :=
    (confined_loadSlots l _).agree .records (by decide)
  rw [hslots, hentries, hsettings]

theorem loadElements_records (l : List ImageRecord) (s : State) : (loadElements l s).tally.records =
    if s.map.state = .ready then [] else s.tally.records := by
  unfold loadElements leaveReady
  dsimp only
  split <;> rfl

/-- The load of a good image leaves an empty tally (R4, R193). -/
theorem loadGood_records (l : List ImageRecord) {s : State} (h : ReadyLaw s) : (loadGood l s).tally.records = [] := by
  have hmap : (loadGood l s).tally.records = (loadElements l (loadTables l s)).tally.records :=
    (confined_loadMap l _).agree .records (by decide)
  obtain ⟨hstate, -, -⟩ := (confined_loadTables l s).agree .mapState (by decide)
  rw [hmap, loadElements_records, hstate]
  split
  · rfl
  · next hready => exact loadTables_records_nil l (h.1 hready).1

theorem readyLaw_completeLoad {s : State} (h : ReadyLaw s) : ReadyLaw (completeLoad s) := by
  have answered (who : LoadOrigin) {u : State} (hu : ReadyLaw u) : ReadyLaw (answerLoad who u) :=
    dependsOn_readyLaw.keeps (confined_answerLoad who u) (by decide) hu
  obtain ⟨-, heq⟩ | ⟨who, hload, ⟨-, heq⟩ | ⟨-, heq⟩⟩ := completeLoad_cases s <;> rw [heq]
  · exact h
  · have hidle := h.2 (by rw [hload]; rfl)
    have hsearch : (loadGood s.image.flash.records s).search = s.search :=
      (confined_loadGood s.image.flash.records s).agree .search (by decide)
    have hnone : (loadGood s.image.flash.records s).search.record = none := by rw [hsearch, hidle]
    exact answered who ⟨fun _ => ⟨loadGood_records _ h, hnone⟩, fun _ => hnone⟩
  · exact answered who ⟨h.1, nofun⟩

theorem readyLaw_completeClose {s : State} (hmap : MapLaw s) (h : ReadyLaw s) : ReadyLaw (completeClose s) := by
  have answered (code : Completion) (body : Body) {u : State} (hu : ReadyLaw u) : ReadyLaw (answerHead code body u) :=
    dependsOn_readyLaw.keeps (confined_answerHead code body u) (by decide) hu
  unfold completeClose
  split
  · next hclosing =>
    have hedit := hmap.2.2.2 hclosing
    have hnone := h.1 (by rw [hedit]; decide)
    split
    · exact answered _ _ ⟨fun _ => hnone, h.2⟩
    · split
      · exact answered _ _ ⟨fun _ => hnone, h.2⟩
      · exact answered _ _ (by exact h)
  · exact h

theorem state_ready_of_searchRefusal {w : RawSearch} {s : State} (h : searchRefusal w s = none) : s.map.state = .ready := by
  refine Classical.byContradiction fun hready => ?_
  unfold searchRefusal at h
  split at h
  · cases h
  · split at h
    · cases h
    · cases h

theorem exec_keeps_readyLaw {c : Instr} {s t : State} (hm : touchesAny [.mapState, .records, .search, .image] c = true)
    (hhead : HeadLaw s) (hmap : MapLaw s) (h : ReadyLaw s) (hc : exec c s = .next t) : ReadyLaw t := by
  cases hs : movesSearch c with
  | true =>
    obtain ⟨hstate, -, -⟩ := agree_of_movesSearch hs hc .mapState (by decide)
    obtain ⟨hload, -⟩ := agree_of_movesSearch hs hc .image (by decide)
    exact h.of_stills hstate hload (exec_searchMove hs hc).stills
  | false =>
    have hothers : (touchesAny [.mapState, .records, .search, .image] c && !movesSearch c) = true := by rw [hm, hs]; rfl
    cases c
    case powerOn => cases hc; exact ⟨fun _ => ⟨rfl, rfl⟩, fun _ => rfl⟩
    case pinReset => cases hc; exact ⟨fun _ => ⟨rfl, rfl⟩, fun _ => rfl⟩
    case analysisCompletion => exact inTurn_keeps hc h (readyLaw_completeAnalysis h)
    case agingExpiry =>
      exact inTurn_keeps hc h (h.of_stills rfl rfl ⟨fun hnil => by simp [agingExpiry, hnil, ageRecords, tableMap], id⟩)
    case tableWriteSettings =>
      refine runRequest_keeps hc h (fun _ => h) fun _ => withBody_keeps _ h fun w => ?_
      unfold tableWriteSettingsOwn
      split
      · exact h
      · have hconfined := confined_applySettings (settingsOf w) s
        obtain ⟨hstate, -, -⟩ := hconfined.agree .mapState (by decide)
        obtain ⟨hload, -⟩ := hconfined.agree .image (by decide)
        have hsearch : (applySettings (settingsOf w) s).search = s.search := hconfined.agree .search (by decide)
        have hlaw : ReadyLaw (applySettings (settingsOf w) s) := h.of_stills hstate hload
          ⟨applySettings_records_nil _, fun hnone => by rw [hsearch, hnone]⟩
        exact hlaw
    case mapOpen =>
      refine runRequest_keeps hc h (fun _ => h) fun _ => noBody_keeps h ?_
      unfold mapOpenOwn
      split
      · exact h
      · split
        · exact h
        · next hidle =>
          split
          · exact h
          · rw [Bool.not_eq_true, Option.isSome_eq_false_iff, Option.isNone_iff_eq_none] at hidle
            have hsearch : (openMap s).search = s.search := (confined_openMap s).agree .search (by decide)
            have hnone : (openMap s).search.record = none := by rw [hsearch, hidle]
            exact ⟨fun _ => ⟨rfl, hnone⟩, fun _ => hnone⟩
    case mapClose =>
      refine runRequest_keeps hc h (fun _ => h) fun _ => noBody_keeps h ?_
      unfold mapCloseOwn
      split
      · exact h
      · split <;> exact h
    case mapCloseCompletion => exact inTurn_keeps hc h (readyLaw_completeClose hmap h)
    case attachSet =>
      refine runRequest_keeps hc h (fun _ => h) fun _ => ?_
      unfold attachSetOwn
      split
      · refine withBody_keeps _ h fun w => ?_
        unfold attachSetFields
        split
        · split
          · dsimp only
            split
            · exact h
            · exact h.of_stills rfl rfl ⟨removeVoter_records_nil _, id⟩
          · split <;> exact h
        · exact h
      · exact h
    case attachDelete =>
      refine runRequest_keeps hc h (fun _ => h) fun _ => withBody_keeps _ h fun station => ?_
      unfold attachDeleteOwn
      split
      · exact h.of_stills rfl rfl ⟨removeVoter_records_nil _, id⟩
      · exact h
    case tallyClearAll =>
      refine runRequest_keeps hc h (fun _ => h) fun _ => ?_
      unfold clearIn
      split
      · exact h.of_stills rfl rfl ⟨fun _ => rfl, id⟩
      · exact h
    case tallyClearFlags =>
      refine runRequest_keeps hc h (fun _ => h) fun _ => ?_
      unfold clearIn
      split
      · exact h.of_stills rfl rfl ⟨fun hnil => by simp [answer, clearFlags, hnil, tableMap], id⟩
      · exact h
    case searchStart head body =>
      refine runRequest_keeps hc h (fun _ => h) fun he => withBody_keeps _ h fun w => ?_
      unfold searchStartOwn
      split
      · exact h
      · next hw =>
        have hconfined := confined_startSearch w (answer ⟨head, .searchStart body⟩ .ok (.searchNumber s.search.nextNumber) s)
        obtain ⟨hstate, -, -⟩ := hconfined.agree .mapState (by decide)
        obtain ⟨hload, -⟩ := hconfined.agree .image (by decide)
        refine ⟨fun hx => absurd (hstate.trans (state_ready_of_searchRefusal hw)) hx, fun hx => ?_⟩
        rw [hload] at hx
        rw [show (answer ⟨head, .searchStart body⟩ .ok (.searchNumber s.search.nextNumber) s).image.load = s.image.load from rfl,
          load_none_of_executes hhead he rfl] at hx
        cases hx
    case imageLoad =>
      refine runRequest_keeps hc h (fun _ => h) fun _ => noBody_keeps h ?_
      unfold imageLoadOwn
      split
      · exact h
      · next hidle =>
        split
        · exact h
        · rw [Bool.not_eq_true, Option.isSome_eq_false_iff, Option.isNone_iff_eq_none] at hidle
          exact ⟨h.1, fun _ => hidle⟩
    case imageSave =>
      refine runRequest_keeps hc h (fun _ => h) fun _ => noBody_keeps h ?_
      unfold imageSaveOwn
      split <;> exact h
    case imageLoadCompletion => exact inTurn_keeps hc h (readyLaw_completeLoad h)
    case imageSaveCompletion =>
      refine inTurn_keeps hc h ?_
      unfold completeSave
      split
      · exact h
      · exact dependsOn_readyLaw.keeps (confined_answerHead _ _ _) (by decide) (by exact h)
    case resetEngines =>
      exact runRequest_keeps hc h (fun _ => h) fun _ => noBody_keeps h ⟨fun _ => ⟨rfl, rfl⟩, fun _ => rfl⟩
    case resetAll =>
      exact runRequest_keeps hc h (fun _ => h) fun _ => noBody_keeps h ⟨fun _ => ⟨rfl, rfl⟩, fun _ => rfl⟩
    all_goals cases hothers

/-- Settles O52: a close and a load alone enter READY, with a valid tree; a vote and a search's start need READY. -/
theorem stepKeepsMapLaws : Obligations.StepKeepsMapLaws := by
  intro s t hhead hmap hready hstep
  have hall : HeadLaw s ∧ MapLaw s ∧ ReadyLaw s := ⟨hhead, hmap, hready⟩
  refine step_keeps (P := fun s => HeadLaw s ∧ MapLaw s ∧ ReadyLaw s) (Q := fun t => MapLaw t ∧ ReadyLaw t)
    (fun _ _ h => h) (fun _ h => h.2) (fun c s t ⟨hhead, hmap, hready⟩ hc => ⟨?_, ?_⟩) hall hstep
  · cases hm : touchesAny [.mapState, .elements] c with
    | true => exact exec_keeps_mapLaw hm hhead hmap hc
    | false => exact dependsOn_mapLaw.keeps (exec_confined hc) (by simpa [touchesAny] using hm) hmap
  · cases hm : touchesAny [.mapState, .records, .search, .image] c with
    | true => exact exec_keeps_readyLaw hm hhead hmap hready hc
    | false => exact dependsOn_readyLaw.keeps (exec_confined hc) (by simpa [touchesAny] using hm) hready

end Sys2Proof.Machine
end

section
/-! The bounds of the queues, the result log and the report queue (O50). -/

namespace Sys2Proof.Machine

/-! ## The request queue and the response queue (R167, R169) -/

/-- The request queue and the response queue hold at most four. -/
structure RoomLaw (s : State) : Prop where
  requests : s.mgmt.requests.length ≤ 4
  responses : s.mgmt.responses.length ≤ 4

theorem dependsOn_roomLaw : DependsOn [.queues] RoomLaw := by
  intro s t h hs
  obtain ⟨hrequests, -, hresponses⟩ := h .queues (by simp)
  exact ⟨by rw [hrequests]; exact hs.requests, by rw [hresponses]; exact hs.responses⟩

theorem RoomLaw.answered {s t : State} (h : RoomLaw s) (hroom : s.mgmt.responses.length < 4) (ha : Answered s t) :
    RoomLaw t := by
  obtain ⟨hrequests, -, x, hresponses⟩ := ha
  refine ⟨?_, ?_⟩
  · rw [hrequests, List.length_tail]
    exact Nat.le_trans (Nat.sub_le _ _) h.requests
  · rw [hresponses, List.length_append]
    exact hroom

theorem RoomLaw.held {s t : State} (h : RoomLaw s) (hh : Held s t) : RoomLaw t :=
  ⟨by rw [hh.requests]; exact h.requests, by rw [hh.responses]; exact h.responses⟩

/-- An operation that held the head ends in an answer: the response queue has kept room for it (R169). -/
theorem RoomLaw.answerHead {s u : State} (h : RoomLaw s) (hroom : s.mgmt.responses.length < 4) (hqueues : Agree s u .queues)
    (code : Completion) (body : Body) : RoomLaw (answerHead code body u) := by
  obtain ⟨hrequests, -, hresponses⟩ := hqueues
  unfold Machine.answerHead
  split
  · exact ⟨by rw [hrequests]; exact h.requests, by rw [hresponses]; exact h.responses⟩
  · exact h.answered hroom ⟨congrArg List.tail hrequests, rfl, _, congrArg (· ++ _) hresponses⟩

/-- While an operation is in progress the response queue has room (R168, R169). -/
theorem HeadLaw.room {s : State} (h : HeadLaw s) (hwork : 0 < heldWork s) : s.mgmt.responses.length < 4 :=
  (h.2.1 (h.of_work (Nat.succ_pred_eq_of_pos hwork)).2).2

theorem roomLaw_endTransaction {tx : Transaction} (reply : Option Reply) {s : State} (hhead : HeadLaw s) (h : RoomLaw s)
    (htx : s.tlm.transaction = some tx) : RoomLaw (endTransaction tx reply s) := by
  unfold endTransaction
  dsimp only
  split
  · exact dependsOn_roomLaw.keeps (searchOutcome_touches tx reply _).confined (by decide) (by exact ⟨h.requests, h.responses⟩)
  · next hwho =>
    refine h.answerHead (hhead.room ?_) (by exact ⟨rfl, rfl, rfl⟩) _ _
    simp only [heldWork_eq, htx, Option.any_some, hwho, beq_self_eq_true, Bool.toNat_true]
    omega

theorem roomLaw_examineReply (f : List Byte) {s : State} (hhead : HeadLaw s) (h : RoomLaw s) : RoomLaw (examineReply f s) := by
  unfold examineReply
  dsimp only
  split
  · next tx x hbind =>
    obtain ⟨y, htx, hy⟩ := Option.bind_eq_some_iff.mp hbind
    obtain ⟨z, -, hpair⟩ := Option.map_eq_some_iff.mp hy
    cases hpair
    exact roomLaw_endTransaction _ (by exact hhead) (by exact ⟨h.requests, h.responses⟩) htx
  · exact ⟨h.requests, h.responses⟩

theorem roomLaw_completeClose {s : State} (hhead : HeadLaw s) (h : RoomLaw s) : RoomLaw (completeClose s) := by
  unfold completeClose
  split
  · next hclosing =>
    have hroom := hhead.room (by rw [heldWork_eq, hclosing, Bool.toNat_true]; omega)
    split
    · exact h.answerHead hroom (by exact ⟨rfl, rfl, rfl⟩) _ _
    · split <;> exact h.answerHead hroom (by exact ⟨rfl, rfl, rfl⟩) _ _
  · exact h

theorem roomLaw_answerLoad {who : LoadOrigin} {s u : State} (hhead : HeadLaw s) (h : RoomLaw s)
    (hload : s.image.load = some who) (hqueues : Agree s u .queues) : RoomLaw (answerLoad who u) := by
  have hroom (hwho : who ≠ .startUp) : s.mgmt.responses.length < 4 := hhead.room (by
    rw [heldWork_eq, hload, Option.any_some, show (who != .startUp) = true from bne_iff_ne.mpr hwho, Bool.toNat_true]
    omega)
  unfold answerLoad
  split
  · exact dependsOn_roomLaw s u (fun p hp => List.mem_singleton.mp hp ▸ hqueues) h
  · exact h.answerHead (hroom (by decide)) hqueues _ _
  · split <;> exact h.answerHead (hroom (by decide)) hqueues _ _

theorem roomLaw_completeLoad {s : State} (hhead : HeadLaw s) (h : RoomLaw s) : RoomLaw (completeLoad s) := by
  obtain ⟨-, heq⟩ | ⟨who, hload, ⟨-, heq⟩ | ⟨-, heq⟩⟩ := completeLoad_cases s <;> rw [heq]
  · exact h
  · exact roomLaw_answerLoad hhead h hload ((confined_loadGood s.image.flash.records s).agree .queues (by decide))
  · exact roomLaw_answerLoad hhead h hload (by exact ⟨rfl, rfl, rfl⟩)

theorem roomLaw_completeSave {s : State} (hhead : HeadLaw s) (h : RoomLaw s) : RoomLaw (completeSave s) := by
  unfold completeSave
  split
  · exact h
  · next hsaving =>
    refine h.answerHead (hhead.room ?_) (by exact ⟨rfl, rfl, rfl⟩) _ _
    rw [heldWork_eq, hsaving, Option.isSome_some, Bool.toNat_true]
    omega

theorem roomLaw_takeRequest (f : Sys2Proof.Frame) (body : ReqBody) {s : State} (h : RoomLaw s) : RoomLaw (takeRequest f body s) := by
  unfold takeRequest
  split
  · unfold handRequest
    dsimp only
    split
    · next hfew => exact ⟨by rw [List.length_append]; exact hfew, h.responses⟩
    · exact ⟨h.requests, h.responses⟩
  · exact h

theorem roomLaw_hubChoice {s : State} (h : RoomLaw s) : RoomLaw (hubChoice s) := by
  obtain hsame | ⟨x, hresponses, hrequests, -⟩ := hubChoice_mgmt s
  · exact ⟨by rw [hsame]; exact h.requests, by rw [hsame]; exact h.responses⟩
  · have hlength := h.responses
    rw [hresponses, List.length_cons] at hlength
    exact ⟨by rw [hrequests]; exact h.requests, by omega⟩

theorem exec_keeps_roomLaw {c : Instr} {s t : State} (hm : touchesAny [.queues] c = true) (hhead : HeadLaw s) (h : RoomLaw s)
    (hc : exec c s = .next t) : RoomLaw t := by
  cases hr : c.request with
  | some r =>
    obtain rfl | ⟨⟨-, -, hroom⟩, hdone⟩ | ⟨-, -, -, hheld⟩ := exec_request hr hc
    · exact h
    · exact h.answered hroom hdone.answered
    · exact h.held hheld
  | none =>
    have hothers : (touchesAny [.queues] c && c.request.isNone) = true := by rw [hm, hr]; rfl
    cases c
    case powerOn => cases hc; exact ⟨Nat.zero_le 4, Nat.zero_le 4⟩
    case pinReset => cases hc; exact ⟨Nat.zero_le 4, Nat.zero_le 4⟩
    case mgmtReq f body => exact inTurn_keeps hc h (roomLaw_takeRequest f body h)
    case hubTxChoice =>
      refine inTurn_keeps hc h ?_
      split
      · exact roomLaw_hubChoice h
      · exact h
    case tlmReplyFrame f =>
      refine inTurn_keeps hc h ?_
      unfold hearFrame
      split
      · exact roomLaw_examineReply f hhead h
      · exact h
    case byteHeard b =>
      refine inTurn_keeps hc h ?_
      unfold hearByte
      dsimp only
      split
      · exact h
      · split
        · exact ⟨h.requests, h.responses⟩
        · exact roomLaw_examineReply _ hhead h
    case tlmWatchdogExpiry =>
      refine inTurn_keeps hc h ?_
      unfold watchdogExpiry
      split
      · exact h
      · next htx => exact roomLaw_endTransaction _ (by exact hhead) (by exact ⟨h.requests, h.responses⟩) htx
    case mapCloseCompletion => exact inTurn_keeps hc h (roomLaw_completeClose hhead h)
    case imageLoadCompletion => exact inTurn_keeps hc h (roomLaw_completeLoad hhead h)
    case imageSaveCompletion => exact inTurn_keeps hc h (roomLaw_completeSave hhead h)
    all_goals cases hothers

/-- One direct command at most waits, since it holds the head (R115). -/
theorem HeadLaw.directQueue_le {s : State} (h : HeadLaw s) : s.tlm.directQueue.length ≤ 1 := by
  have hwork := h.1
  rw [heldWork_eq] at hwork
  split at hwork <;> omega

/-! ## The descriptor queue (R27, R28) -/

/-- The descriptor queue holds at most 16, and an analysis in progress has its entry at the head. -/
structure IntakeRoom (s : State) : Prop where
  queue : s.echo.queue.length ≤ 16
  head : s.echo.analysis.isSome = true → s.echo.queue ≠ []

theorem dependsOn_intakeRoom : DependsOn [.intake, .analysis] IntakeRoom := by
  intro s t h hs
  obtain ⟨hqueue, -⟩ := h .intake (by simp)
  have hanalysis : t.echo.analysis = s.echo.analysis := h .analysis (by simp)
  exact ⟨by rw [hqueue]; exact hs.queue, by rw [hqueue, hanalysis]; exact hs.head⟩

theorem intakeRoom_of_empty {s : State} (hqueue : s.echo.queue = []) (hanalysis : s.echo.analysis = none) : IntakeRoom s :=
  ⟨by rw [hqueue]; exact Nat.zero_le 16, by rw [hanalysis]; exact nofun⟩

theorem intakeRoom_offerDescriptor (f : Sys2Proof.Frame) {s : State} (h : IntakeRoom s) :
    IntakeRoom { s with echo := offerDescriptor f s.echo } := by
  unfold offerDescriptor
  split
  · exact ⟨h.queue, h.head⟩
  · split
    · next hroom => exact ⟨by rw [List.length_append]; exact hroom, fun _ => by simp⟩
    · exact ⟨h.queue, h.head⟩

theorem intakeRoom_finishAnalysis (o : AnalysisOutcome) {s : State} (h : IntakeRoom s) : IntakeRoom (finishAnalysis o s) :=
  ⟨by
    show s.echo.queue.tail.length ≤ 16
    rw [List.length_tail]
    exact Nat.le_trans (Nat.sub_le _ _) h.queue, nofun⟩

theorem intakeRoom_completeAnalysis {s : State} (h : IntakeRoom s) : IntakeRoom (completeAnalysis s) := by
  unfold completeAnalysis
  split
  · split
    · exact intakeRoom_finishAnalysis _ h
    · split
      · exact intakeRoom_finishAnalysis _ h
      · exact intakeRoom_finishAnalysis _ (by exact ⟨h.queue, h.head⟩)
  · exact h

theorem intakeRoom_leaveReady {s : State} (h : IntakeRoom s) : IntakeRoom (leaveReady s) := by
  unfold leaveReady
  split
  · exact ⟨h.queue, fun hx => h.head (by simpa [noteMapLeft] using hx)⟩
  · exact h

theorem intakeRoom_loadGood (l : List ImageRecord) {s : State} (h : IntakeRoom s) : IntakeRoom (loadGood l s) := by
  have htables := dependsOn_intakeRoom.keeps (confined_loadTables l s) (by decide) h
  have hleft := intakeRoom_leaveReady htables
  have helements : IntakeRoom (loadElements l (loadTables l s)) := ⟨hleft.queue, hleft.head⟩
  have hmap := dependsOn_intakeRoom.keeps (confined_loadMap l _) (by decide) helements
  exact dependsOn_intakeRoom.keeps (confined_setStatus .loaded _) (by decide) hmap

theorem exec_keeps_intakeRoom {c : Instr} {s t : State} (hm : touchesAny [.intake, .analysis] c = true) (h : IntakeRoom s)
    (hc : exec c s = .next t) : IntakeRoom t := by
  have refused (r : Request) (code : Completion) : IntakeRoom (refuse r code s) := ⟨h.queue, h.head⟩
  cases c
  case powerOn => cases hc; exact intakeRoom_of_empty rfl rfl
  case pinReset => cases hc; exact intakeRoom_of_empty rfl rfl
  case burstDesc f =>
    refine inTurn_keeps hc h ?_
    unfold receiveDescriptor
    dsimp only
    split
    · split
      · exact intakeRoom_offerDescriptor f (s := arrive .nodeSide f false s) ⟨h.queue, h.head⟩
      · exact ⟨h.queue, h.head⟩
    · exact h
  case analysisBegin =>
    refine inTurn_keeps hc h ?_
    unfold beginAnalysis
    split
    · next hqueue _ => exact ⟨h.queue, fun _ => by simp [hqueue]⟩
    · exact h
  case analysisCompletion => exact inTurn_keeps hc h (intakeRoom_completeAnalysis h)
  case mapOpen =>
    refine runRequest_keeps hc h (refused _) fun _ => noBody_keeps (refused _ _) ?_
    unfold mapOpenOwn
    split
    · exact refused _ _
    · split
      · exact refused _ _
      · split
        · exact refused _ _
        · exact ⟨(intakeRoom_leaveReady h).queue, (intakeRoom_leaveReady h).head⟩
  case imageLoadCompletion =>
    exact inTurn_keeps hc h (dependsOn_intakeRoom.completeLoad (by decide) h fun _ => intakeRoom_loadGood _ h)
  case resetEngines =>
    exact runRequest_keeps hc h (refused _) fun _ => noBody_keeps (refused _ _) (intakeRoom_of_empty rfl rfl)
  case resetAll =>
    exact runRequest_keeps hc h (refused _) fun _ => noBody_keeps (refused _ _) (intakeRoom_of_empty rfl rfl)
  all_goals cases hm

/-! ## The result log (R142) -/

/-- The result log holds at most eight. -/
structure LogRoom (s : State) : Prop where
  log : s.search.log.length ≤ 8

theorem dependsOn_logRoom : DependsOn [.search] LogRoom := by
  intro s t h hs
  have hsearch : t.search = s.search := h .search (by simp)
  exact ⟨by rw [hsearch]; exact hs.log⟩

theorem length_logResult_le (log : List SearchResult) (x : SearchResult) : (logResult log x).length ≤ 8 := by
  simp only [logResult, List.length_append, List.length_drop, List.length_singleton]
  omega

theorem SearchMove.logRoom {s t : State} (h : SearchMove s t) (hs : LogRoom s) : LogRoom t := by
  obtain ⟨-, ⟨hlog, -⟩ | ⟨-, x, -, -, -, hlog⟩, -, -⟩ := h
  · exact ⟨by rw [hlog]; exact hs.log⟩
  · exact ⟨by rw [hlog]; exact length_logResult_le _ x⟩

theorem exec_keeps_logRoom {c : Instr} {s t : State} (hm : touchesAny [.search] c = true) (h : LogRoom s)
    (hc : exec c s = .next t) : LogRoom t := by
  have refused (r : Request) (code : Completion) : LogRoom (refuse r code s) := ⟨h.log⟩
  cases hs : movesSearch c with
  | true => exact (exec_searchMove hs hc).logRoom h
  | false =>
    have hothers : (touchesAny [.search] c && !movesSearch c) = true := by rw [hm, hs]; rfl
    cases c
    case powerOn => cases hc; exact ⟨Nat.zero_le 8⟩
    case pinReset => cases hc; exact ⟨Nat.zero_le 8⟩
    case searchStart =>
      refine runRequest_keeps hc h (refused _) fun _ => withBody_keeps _ (refused _ _) fun w => ?_
      unfold searchStartOwn
      split
      · exact refused _ _
      · exact (searchMove_startSearch w _).logRoom ⟨h.log⟩
    case resetEngines => exact runRequest_keeps hc h (refused _) fun _ => noBody_keeps (refused _ _) ⟨Nat.zero_le 8⟩
    case resetAll => exact runRequest_keeps hc h (refused _) fun _ => noBody_keeps (refused _ _) ⟨Nat.zero_le 8⟩
    all_goals cases hothers

/-! ## The report queue (R182) -/

/-- A report queue of the eight slots, none standing twice. -/
structure QueueOk (q : List QueuedSlot) : Prop where
  nodup : (q.map (·.slot)).Nodup
  below : ∀ x ∈ q, x.slot < 8

theorem queueOk_nil : QueueOk [] := ⟨List.nodup_nil, nofun⟩

theorem QueueOk.sublist {q q' : List QueuedSlot} (h : QueueOk q) (hsub : q'.Sublist q) : QueueOk q' :=
  ⟨h.nodup.sublist (hsub.map _), fun x hx => h.below x (hsub.subset hx)⟩

theorem QueueOk.enqueueSlot {q : List QueuedSlot} (h : QueueOk q) {slot : Nat} (hslot : slot < 8) (cause : Cause) :
    QueueOk (enqueueSlot slot cause q) := by
  unfold Machine.enqueueSlot
  split
  · refine ⟨?_, fun x hx => ?_⟩
    · rw [List.map_map, List.map_congr_left (g := (·.slot))]
      · exact h.nodup
      · intro x _
        dsimp only [Function.comp_apply]
        split <;> rfl
    · obtain ⟨y, hy, rfl⟩ := List.mem_map.mp hx
      split <;> exact h.below y hy
  · next hfree =>
    simp only [List.any_eq_true, beq_iff_eq, not_exists, not_and] at hfree
    refine ⟨?_, fun x hx => ?_⟩
    · rw [List.map_append, List.map_singleton, List.nodup_append]
      refine ⟨h.nodup, List.pairwise_singleton _ _, fun a ha b hb => ?_⟩
      obtain ⟨x, hx, rfl⟩ := List.mem_map.mp ha
      rw [List.mem_singleton.mp hb]
      exact hfree x hx
    · obtain hold | hnew := List.mem_append.mp hx
      · exact h.below x hold
      · rw [List.mem_singleton.mp hnew]
        exact hslot

theorem QueueOk.raiseFrom (ev : Event) {slots : List ReportSlot} {i : Nat} {q : List QueuedSlot} (h : QueueOk q)
    (hi : i + slots.length ≤ 8) : QueueOk (raiseFrom ev i slots q) := by
  induction slots generalizing i q with
  | nil => exact h
  | cons x rest ih =>
    rw [List.length_cons] at hi
    refine ih ?_ (by omega)
    split
    · exact h.enqueueSlot (by omega) _
    · exact h

/-- The slots queued at a reset stand in rising order from the first. -/
theorem nowSlots_pairwise (slots : List ReportSlot) (i : Nat) : (nowSlots i slots).Pairwise (fun x y => x.slot < y.slot)
    ∧ ∀ x ∈ nowSlots i slots, i ≤ x.slot ∧ x.slot < i + slots.length := by
  induction slots generalizing i with
  | nil => exact ⟨List.Pairwise.nil, nofun⟩
  | cons y rest ih =>
    obtain ⟨hrising, hbounds⟩ := ih (i + 1)
    have later : ∀ x ∈ nowSlots (i + 1) rest, i ≤ x.slot ∧ x.slot < i + (y :: rest).length := fun x hx => by
      have := hbounds x hx
      rw [List.length_cons]
      omega
    unfold nowSlots
    split
    · refine ⟨List.pairwise_cons.mpr ⟨fun x hx => (hbounds x hx).1, hrising⟩, fun x hx => ?_⟩
      obtain rfl | hx := List.mem_cons.mp hx
      · exact ⟨Nat.le_refl i, by rw [List.length_cons]; exact Nat.lt_add_of_pos_right (Nat.succ_pos _)⟩
      · exact later x hx
    · exact ⟨hrising, later⟩

theorem queueOk_nowSlots {slots : List ReportSlot} (h : slots.length = 8) : QueueOk (nowSlots 0 slots) := by
  obtain ⟨hrising, hbounds⟩ := nowSlots_pairwise slots 0
  refine ⟨List.pairwise_map.mpr (hrising.imp fun hlt => Nat.ne_of_lt hlt), fun x hx => ?_⟩
  have := hbounds x hx
  omega

/-- Eight slots and their queue. -/
structure ReportsOk (r : Reports) : Prop where
  slots : r.slots.length = 8
  queue : QueueOk r.queue

def ReportLaw (s : State) : Prop := ReportsOk s.reports

theorem dependsOn_reportLaw : DependsOn [.slots, .reportQueue] ReportLaw := by
  intro s t h hs
  have hslots : t.reports.slots = s.reports.slots := h .slots (by simp)
  have hqueue : t.reports.queue = s.reports.queue := h .reportQueue (by simp)
  exact ⟨by rw [hslots]; exact hs.slots, by rw [hqueue]; exact hs.queue⟩

theorem reportsOk_powerOn : ReportsOk powerOnReports := ⟨rfl, queueOk_nil⟩

theorem ReportsOk.raiseEvents {r : Reports} (h : ReportsOk r) (evs : List Event) : ReportsOk (evs.foldl raiseEvent r) :=
  List.foldlRecOn evs raiseEvent h fun _ ht ev _ =>
    ⟨ht.slots, ht.queue.raiseFrom ev (Nat.le_of_eq ((Nat.zero_add _).trans ht.slots))⟩

theorem ReportsOk.triggerSlot {r : Reports} (h : ReportsOk r) (slot : Nat) (cause : Cause) : ReportsOk (triggerSlot slot cause r) := by
  unfold Machine.triggerSlot
  split
  · next hx =>
    split
    · obtain ⟨hlt, -⟩ := List.getElem?_eq_some_iff.mp hx
      rw [h.slots] at hlt
      exact ⟨h.slots, h.queue.enqueueSlot hlt cause⟩
    · exact h
  · exact h

theorem ReportsOk.set {r : Reports} (h : ReportsOk r) (n : Nat) (x : ReportSlot) :
    ReportsOk { r with slots := r.slots.set n x } := ⟨by rw [List.length_set]; exact h.slots, h.queue⟩

theorem ReportsOk.writeSlot {r : Reports} (h : ReportsOk r) (now : Nat) {n : Nat} (hn : n < 8) (e : SlotEntry) :
    ReportsOk (writeSlot now n e r) := by
  have hleft := h.queue.sublist (List.filter_sublist (p := fun x => x.slot != n))
  refine ⟨by rw [Machine.writeSlot, List.length_set]; exact h.slots, ?_⟩
  unfold Machine.writeSlot
  dsimp only
  split
  · exact hleft.enqueueSlot hn _
  · exact hleft

theorem reportLaw_sendReport {q : QueuedSlot} {rest : List QueuedSlot} (x : ReportSlot) (l : Link) {s : State}
    (hqueue : s.reports.queue = q :: rest) (h : ReportLaw s) : ReportLaw (sendReport q rest x l s) := by
  have hold := h.queue
  rw [hqueue] at hold
  have hrest : QueueOk rest := hold.sublist (List.sublist_cons_self q rest)
  unfold sendReport ReportLaw
  dsimp only
  split
  · split
    · exact ⟨h.slots, hrest.enqueueSlot (hold.below q (List.mem_cons_self ..)) _⟩
    · exact ⟨h.slots, hrest⟩
  · exact ⟨by rw [List.length_set]; exact h.slots, hrest⟩

theorem reportLaw_hubChoice {s : State} (h : ReportLaw s) : ReportLaw (hubChoice s) := by
  unfold hubChoice
  dsimp only
  split
  · split
    · exact h
    · split <;> exact h
  · next hqueue =>
    split
    · exact reportLaw_sendReport _ _ hqueue h
    · exact h
    · exact h
  · exact h
  · exact h

theorem reportLaw_periodExpiry (slot : Nat) {s : State} (h : ReportLaw s) : ReportLaw (periodExpiry slot s) := by
  unfold periodExpiry
  split
  · exact h
  · split
    · exact h
    · split
      · exact h
      · exact (ReportsOk.triggerSlot h slot .periodic).set slot _

theorem SearchMove.reportLaw {s t : State} (h : SearchMove s t) (hs : ReportLaw s) : ReportLaw t := by
  obtain ⟨evs, hevents⟩ := h.events
  rw [ReportLaw, hevents]
  exact hs.raiseEvents evs

theorem reportLaw_applySettings (n : Settings) {s : State} (h : ReportLaw s) : ReportLaw (applySettings n s) := by
  unfold applySettings
  dsimp only
  split
  · exact h
  · exact ReportsOk.raiseEvents h _

theorem reportLaw_loadGood {l : List ImageRecord} (hl : ∀ x ∈ l, recordOk x = true) {s : State} (h : ReportLaw s) :
    ReportLaw (loadGood l s) := by
  have hsettings : ReportLaw (loadSettings l s) :=
    loadSettings_keeps (P := ReportLaw) (fun _ _ _ ht => reportLaw_applySettings _ ht) h
  have hentries := dependsOn_reportLaw.keeps (confined_loadEntries l _) (by decide) hsettings
  have hslots : ReportLaw (loadTables l s) := loadSlots_keeps (P := ReportLaw) (fun t w e hw _ ht => by
    have hok := hl _ hw
    simp only [recordOk, Bool.and_eq_true, within_zero_eq_true_iff] at hok
    exact ReportsOk.writeSlot ht _ (Nat.lt_succ_of_le hok.1.2) e) hentries
  have helements := dependsOn_reportLaw.keeps (confined_loadElements l _) (by decide) hslots
  have hmap := dependsOn_reportLaw.keeps (confined_loadMap l _) (by decide) helements
  exact dependsOn_reportLaw.keeps (confined_setStatus .loaded _) (by decide) hmap

theorem exec_keeps_reportLaw {c : Instr} {s t : State} (hm : touchesAny [.slots, .reportQueue] c = true) (h : ReportLaw s)
    (hc : exec c s = .next t) : ReportLaw t := by
  cases hs : movesSearch c with
  | true => exact (exec_searchMove hs hc).reportLaw h
  | false =>
    have hothers : (touchesAny [.slots, .reportQueue] c && !movesSearch c) = true := by rw [hm, hs]; rfl
    cases c
    case powerOn => cases hc; exact reportsOk_powerOn
    case pinReset => cases hc; exact reportsOk_powerOn
    case hubTxChoice =>
      refine inTurn_keeps hc h ?_
      split
      · exact reportLaw_hubChoice h
      · exact h
    case analysisCompletion =>
      refine inTurn_keeps hc h ?_
      unfold completeAnalysis
      split
      · split
        · exact h
        · split
          · exact h
          · exact ReportsOk.raiseEvents h _
      · exact h
    case periodTimerExpiry slot => exact inTurn_keeps hc h (reportLaw_periodExpiry slot h)
    case tableWriteSettings =>
      refine runRequest_keeps hc h (fun _ => h) fun _ => withBody_keeps _ h fun w => ?_
      unfold tableWriteSettingsOwn
      split
      · exact h
      · exact reportLaw_applySettings _ h
    case tableWriteReportSlot =>
      refine runRequest_keeps hc h (fun _ => h) fun _ => withBody_keeps _ h fun w => ?_
      unfold tableWriteReportSlotOwn
      split
      · split
        · next hslot =>
          rw [within_zero_eq_true_iff] at hslot
          split
          · exact ReportsOk.writeSlot h _ (Nat.lt_succ_of_le hslot) _
          · exact h
        · exact h
      · exact h
    case attachSet =>
      refine runRequest_keeps hc h (fun _ => h) fun _ => ?_
      unfold attachSetOwn
      split
      · refine withBody_keeps _ h fun w => ?_
        unfold attachSetFields
        split
        · split
          · dsimp only
            split
            · exact h
            · exact ReportsOk.raiseEvents h _
          · split <;> exact h
        · exact h
      · exact h
    case attachDelete =>
      refine runRequest_keeps hc h (fun _ => h) fun _ => withBody_keeps _ h fun station => ?_
      unfold attachDeleteOwn
      split
      · exact ReportsOk.raiseEvents h _
      · exact h
    case searchStart =>
      refine runRequest_keeps hc h (fun _ => h) fun _ => withBody_keeps _ h fun w => ?_
      unfold searchStartOwn
      split
      · exact h
      · exact (searchMove_startSearch w _).reportLaw (by exact h)
    case imageLoadCompletion =>
      exact inTurn_keeps hc h (dependsOn_reportLaw.completeLoad (by decide) h
        fun hg => reportLaw_loadGood (fun _ => recordOk_of_imageGood hg) h)
    case resetEngines =>
      exact runRequest_keeps hc h (fun _ => h) fun _ => noBody_keeps h
        ⟨(List.length_map _).trans h.slots, queueOk_nowSlots h.slots⟩
    case resetAll => exact runRequest_keeps hc h (fun _ => h) fun _ => noBody_keeps h reportsOk_powerOn
    all_goals cases hothers

/-! ## All of them -/

theorem queueLaw_iff (s : State) : QueueLaw s ↔
    RoomLaw s ∧ s.tlm.directQueue.length ≤ 1 ∧ IntakeRoom s ∧ LogRoom s ∧ ReportLaw s :=
  ⟨fun ⟨hrequests, hresponses, hdirect, hqueue, hhead, hlog, hslots, hnodup, hbelow⟩ =>
      ⟨⟨hrequests, hresponses⟩, hdirect, ⟨hqueue, hhead⟩, ⟨hlog⟩, hslots, hnodup, hbelow⟩,
    fun ⟨hroom, hdirect, hintake, hlog, hreports⟩ =>
      ⟨hroom.requests, hroom.responses, hdirect, hintake.queue, hintake.head, hlog.log, hreports.slots, hreports.queue.nodup,
        hreports.queue.below⟩⟩

/-- Settles O50: each queue grows only where it has room, and the head that executes has room kept for its response. -/
theorem stepKeepsQueueLaw : Obligations.StepKeepsQueueLaw := by
  intro s t hhead hqueue hstep
  rw [queueLaw_iff] at hqueue ⊢
  obtain ⟨hroom, -, hintake, hlog, hreports⟩ := hqueue
  have hroom' : RoomLaw t := by
    have hall : HeadLaw s ∧ RoomLaw s := ⟨hhead, hroom⟩
    refine step_keeps (P := fun s => HeadLaw s ∧ RoomLaw s) (fun _ _ h => ⟨h.1, h.2.1, h.2.2⟩) (fun _ h => h.2)
      (fun c s t ⟨hhead, hroom⟩ hc => ?_) hall hstep
    cases hm : touchesAny [.queues] c with
    | true => exact exec_keeps_roomLaw hm hhead hroom hc
    | false => exact dependsOn_roomLaw.keeps (exec_confined hc) (by simpa [touchesAny] using hm) hroom
  exact ⟨hroom', (stepKeepsHeadLaw s t hhead hstep).directQueue_le,
    dependsOn_intakeRoom.step (fun _ _ _ => exec_keeps_intakeRoom) hintake hstep,
    dependsOn_logRoom.step (fun _ _ _ => exec_keeps_logRoom) hlog hstep,
    dependsOn_reportLaw.step (fun _ _ _ => exec_keeps_reportLaw) hreports hstep⟩

end Sys2Proof.Machine
end

section
/-! A step, power-on and pin reset, and the laws in the state they take up (O1 to O3). -/

namespace Sys2Proof.Machine

theorem inTurn_total (own : State → State) (s : State) : ∃ t, inTurn own s = .next t := by
  obtain ⟨-, hran⟩ | ⟨-, hwaits⟩ := inTurn_cases own s
  · exact ⟨_, hran⟩
  · exact ⟨_, hwaits⟩

theorem runRequest_total (r : Request) (own : State → State) (s : State) : ∃ t, runRequest r own s = .next t := by
  obtain hsame | ⟨code, hrefused⟩ | ⟨-, hran⟩ := runRequest_cases r own s
  · exact ⟨_, hsame⟩
  · exact ⟨_, hrefused⟩
  · exact ⟨_, hran⟩

theorem execTlmTransactionStart_total (s : State) : ∃ t, execTlmTransactionStart s = .next t := by
  unfold execTlmTransactionStart
  split
  · exact ⟨_, rfl⟩
  · exact ⟨_, rfl⟩

/-- No command stops the part. -/
theorem exec_total (c : Instr) (s : State) : ∃ t, exec c s = .next t := by
  cases c
  case powerOn | pinReset => exact ⟨_, rfl⟩
  case tlmTransactionStart => exact execTlmTransactionStart_total s
  case plantTimeTick | lossOfSignal | signalReturn | headerTestHunting | invalidHeader | validHeader | burstDesc | spectrumSeg
    | mgmtReq | frameArrival | hubTxChoice | nodeTxChoice | crcIntervalExpiry | analysisBegin | analysisCompletion | agingExpiry
    | bandIntervalExpiry | tlmReplyFrame | tlmWatchdogExpiry | byteHeard | lapseDeadline | measureDeadline | periodTimerExpiry
    | mapCloseCompletion | imageLoadCompletion | imageSaveCompletion =>
    exact inTurn_total _ s
  all_goals exact runRequest_total _ _ s

/-- Settles O1: by the queue of commands, and each command by its kind. -/
theorem stepRunsFront : Obligations.StepRunsFront :=
  ⟨fun c rest s h => by rw [step, h], fun s h => by rw [step, h], exec_total⟩

/-- Settles O3: the two resets are one state, each field a reset value. -/
theorem powerOnAndPinReset : Obligations.PowerOnAndPinReset :=
  ⟨fun _ _ => ⟨rfl, rfl, rfl, rfl, rfl, rfl, rfl, rfl, rfl, rfl⟩, rfl⟩

/-! ## The laws at power-on -/

theorem queueLaw_powerOn (strap : Byte) (flash : Flash) (pending : List Instr) : QueueLaw (State.powerOn strap flash pending) :=
  (queueLaw_iff _).mpr ⟨⟨Nat.zero_le 4, Nat.zero_le 4⟩, Nat.zero_le 1, intakeRoom_of_empty rfl rfl, ⟨Nat.zero_le 8⟩,
    reportsOk_powerOn⟩

theorem laneLaw_powerOn (strap : Byte) (flash : Flash) (pending : List Instr) : LaneLaw (State.powerOn strap flash pending) := by
  simp [LaneLaw, laneLaw, State.powerOn, powerOnLink, powerOnLane]

theorem linkLaw_powerOn (strap : Byte) (flash : Flash) (pending : List Instr) : LinkLaw (State.powerOn strap flash pending) := by
  simp [LinkLaw, laneTimes, laneDue, testedAt, occupancy, storeOccupancy, hubLeaving, nodeLeaving, waitingBytes, arriving,
    insertionRest, fillRest, State.powerOn, powerOnLink, powerOnLane]

theorem tableLaw_powerOn (strap : Byte) (flash : Flash) (pending : List Instr) : TableLaw (State.powerOn strap flash pending) :=
  (tableLaw_iff _).mpr ⟨entriesOk_resetChannels, entriesOk_resetBands, entriesOk_resetCorrections, entriesOk_resetSlots,
    entriesOk_resetAlarms⟩

/-- Settles O2: every table empty or at its reset values. -/
theorem resetHasEveryLaw : Obligations.ResetHasEveryLaw := fun strap flash pending =>
  ⟨headLaw_powerOn strap flash pending, queueLaw_powerOn strap flash pending, intakeLaw_of_zero rfl rfl,
    (elementLaw_iff _).mpr elementsOk_nil, mapLaw_of_empty rfl rfl rfl rfl, ⟨fun _ => ⟨rfl, rfl⟩, fun _ => rfl⟩,
    (attachmentLaw_iff _).mpr attachmentsOk_nil, (trackingLaw_iff _).mpr trackOk_nil, bandLaw_resetBands rfl,
    (tallyLaw_iff _).mpr (recordsOk_nil _), settingsLaw_reset (strap := strap) rfl rfl, tableLaw_powerOn strap flash pending,
    resultLaw_resetSearch rfl, laneLaw_powerOn strap flash pending, linkLaw_powerOn strap flash pending⟩

end Sys2Proof.Machine
end

section
/-! The image a save writes (O60). -/

namespace Sys2Proof.Machine

/-! ## Lists written out with their numbers -/

theorem map_numbered {α β γ : Type} (g : β → γ) (f : Nat → α → β) (l : List α) :
    ∀ k, (numbered f k l).map g = numbered (fun i c => g (f i c)) k l := by
  induction l with
  | nil => exact fun _ => rfl
  | cons x rest ih => intro k; simp [numbered, ih]

theorem filterMap_numbered {α β γ : Type} {g : β → Option γ} {f : Nat → α → β} {h : Nat → α → γ}
    (hg : ∀ i c, g (f i c) = some (h i c)) (l : List α) : ∀ k, (numbered f k l).filterMap g = numbered h k l := by
  induction l with
  | nil => exact fun _ => rfl
  | cons x rest ih => intro k; simp [numbered, hg, ih]

theorem filterMap_numbered_none {α β γ : Type} {g : β → Option γ} {f : Nat → α → β} (hg : ∀ i c, g (f i c) = none)
    (l : List α) : ∀ k, (numbered f k l).filterMap g = [] := by
  induction l with
  | nil => exact fun _ => rfl
  | cons x rest ih => intro k; simp [numbered, hg, ih]

theorem numbered_index {α : Type} (l : List α) : ∀ k, numbered (fun i (_ : α) => i) k l = List.range' k l.length := by
  induction l with
  | nil => exact fun _ => rfl
  | cons x rest ih => intro k; simp [numbered, ih, List.range'_succ]

/-- Numbers of records written out in order are distinct. -/
theorem distinct_numbered {α β : Type} (g : β → Nat) (f : Nat → α → β) (hg : ∀ i c, g (f i c) = i) (l : List α) :
    distinct ((numbered f 0 l).map g) = true := by
  rw [distinct_eq_true_iff, map_numbered, funext fun i => funext (hg i), numbered_index]
  exact List.nodup_range'

theorem nodup_keys_of_tableOk {α : Type} {bound : Nat} {t : Table α} (h : tableOk bound t = true) : (t.map (·.1)).Nodup :=
  List.pairwise_map.mpr (((tableOk_iff bound t).mp h).1.imp fun hlt => Nat.ne_of_lt hlt)

/-! ## The records of a save, kind by kind -/

theorem imageSettings_imageRecords (s : State) : imageSettings (imageRecords s) = [rawSettings s.mgmt.settings] := by
  simp [imageSettings, imageRecords, filterMap_numbered_none, List.filterMap_map]

theorem imageChannels_imageRecords (s : State) : imageChannels (imageRecords s) = numbered rawChannel 0 s.echo.channels := by
  simp [imageChannels, imageRecords, filterMap_numbered_none, List.filterMap_map,
    filterMap_numbered (h := rawChannel)]

theorem imageBands_imageRecords (s : State) :
    imageBands (imageRecords s) = numbered (fun i (x : BandSlot) => rawBand i x.entry) 0 s.bands.bands := by
  simp [imageBands, imageRecords, filterMap_numbered_none, List.filterMap_map,
    filterMap_numbered (h := fun i (x : BandSlot) => rawBand i x.entry)]

theorem imageCorrections_imageRecords (s : State) :
    imageCorrections (imageRecords s) = numbered Prod.mk 0 s.sweep.corrections := by
  simp [imageCorrections, imageRecords, filterMap_numbered_none, List.filterMap_map,
    filterMap_numbered (h := fun i (c : Correction) => (i, c))]

theorem imageSlots_imageRecords (s : State) :
    imageSlots (imageRecords s) = numbered (fun i (x : ReportSlot) => rawSlot i x.entry) 0 s.reports.slots := by
  simp [imageSlots, imageRecords, filterMap_numbered_none, List.filterMap_map,
    filterMap_numbered (h := fun i (x : ReportSlot) => rawSlot i x.entry)]

theorem imageAlarms_imageRecords (s : State) : imageAlarms (imageRecords s) = numbered rawAlarm 0 s.reports.alarms := by
  simp [imageAlarms, imageRecords, filterMap_numbered_none, List.filterMap_map,
    filterMap_numbered (h := rawAlarm)]

theorem imageElements_imageRecords (s : State) :
    imageElements (imageRecords s) = s.map.elements.map (fun p => rawElement p.1 p.2) := by
  simp [imageElements, imageRecords, filterMap_numbered_none, List.filterMap_map, Function.comp_def]

theorem imageAttachments_imageRecords (s : State) :
    imageAttachments (imageRecords s) = s.map.attachments.map (fun p => (p.1, rawAttach p.2)) := by
  simp [imageAttachments, imageRecords, filterMap_numbered_none, List.filterMap_map, Function.comp_def]

/-- No number, index or station id stands twice among a save's records. -/
theorem countsOk_imageRecords {s : State} (helements : ElementLaw s) (hattachments : AttachmentLaw s) :
    countsOk (imageRecords s) = true := by
  obtain ⟨helements, -⟩ := helements
  obtain ⟨hattachments, hstations, -⟩ := hattachments
  have hnumbers := nodup_keys_of_tableOk helements
  have hindices := nodup_keys_of_tableOk hattachments
  simp only [countsOk, imageSettings_imageRecords, imageChannels_imageRecords, imageBands_imageRecords,
    imageCorrections_imageRecords, imageSlots_imageRecords, imageAlarms_imageRecords, imageElements_imageRecords,
    imageAttachments_imageRecords, List.length_singleton, decide_true, Bool.true_and, Bool.and_eq_true, List.map_map]
  refine ⟨⟨⟨⟨⟨⟨⟨?_, ?_⟩, ?_⟩, ?_⟩, ?_⟩, ?_⟩, ?_⟩, ?_⟩
  · exact distinct_numbered _ _ (fun _ _ => rfl) _
  · exact distinct_numbered _ _ (fun _ _ => rfl) _
  · exact distinct_numbered _ _ (fun _ _ => rfl) _
  · exact distinct_numbered _ _ (fun _ _ => rfl) _
  · exact distinct_numbered _ _ (fun _ _ => rfl) _
  · exact (distinct_eq_true_iff _).mpr hnumbers
  · exact (distinct_eq_true_iff _).mpr hindices
  · exact (distinct_eq_true_iff _).mpr hstations

theorem index_lt {α : Type} {l : List α} {i : Nat} {x : α} (h : l[i]? = some x) : i < l.length :=
  (List.getElem?_eq_some_iff.mp h).1

/-- Each record of a save passes the checks of a write of its table. -/
theorem recordOk_imageRecords {s : State} (hsettings : SettingsLaw s) (htable : TableLaw s) (helements : ElementLaw s)
    (hattachments : AttachmentLaw s) : ∀ x ∈ imageRecords s, recordOk x = true := by
  obtain ⟨hsettings, -⟩ := hsettings
  obtain ⟨⟨hnchannels, hchannels⟩, ⟨hnbands, hbands⟩, ⟨hncorrections, hcorrections⟩, ⟨hnslots, hslots⟩, ⟨hnalarms, halarms⟩⟩ :=
    htable
  obtain ⟨-, helements⟩ := helements
  obtain ⟨hattachments, -, hvalues⟩ := hattachments
  intro x hx
  simp only [imageRecords, List.mem_append, List.mem_singleton, mem_numbered, List.mem_map, Nat.add_zero] at hx
  obtain (((((((rfl | ⟨i, c, hc, rfl⟩) | ⟨i, b, hb, rfl⟩) | ⟨i, c, hc, rfl⟩) | ⟨i, e, he, rfl⟩) | ⟨i, e, he, rfl⟩)
    | ⟨p, hp, rfl⟩) | ⟨p, hp, rfl⟩) := hx
  · rw [recordOk, hsettings]; rfl
  · have hi := index_lt hc
    have hok : channelOf (rawChannel i c) = some c := hchannels c (List.mem_of_getElem? hc)
    exact Bool.and_eq_true_iff.mpr ⟨(within_zero_eq_true_iff 7 i).mpr (by omega), Option.isSome_iff_exists.mpr ⟨_, hok⟩⟩
  · have hi := index_lt hb
    have hok : bandOf (rawBand i b.entry) = some b.entry := hbands b (List.mem_of_getElem? hb)
    exact Bool.and_eq_true_iff.mpr ⟨(within_zero_eq_true_iff 31 i).mpr (by omega), Option.isSome_iff_exists.mpr ⟨_, hok⟩⟩
  · have hi := index_lt hc
    simp only [recordOk, hcorrections c (List.mem_of_getElem? hc), Bool.and_true, within_zero_eq_true_iff]
    omega
  · have hi := index_lt he
    obtain ⟨hshape, hslot⟩ := hslots e (List.mem_of_getElem? he)
    have hok : slotOf (rawSlot i e.entry) = some e.entry := hslot
    exact Bool.and_eq_true_iff.mpr ⟨Bool.and_eq_true_iff.mpr ⟨hshape, (within_zero_eq_true_iff 7 i).mpr (by omega)⟩,
      Option.isSome_iff_exists.mpr ⟨_, hok⟩⟩
  · have hi := index_lt he
    have hok : alarmOf (rawAlarm i e) = some e := halarms e (List.mem_of_getElem? he)
    exact Bool.and_eq_true_iff.mpr ⟨(within_zero_eq_true_iff 3 i).mpr (by omega), Option.isSome_iff_exists.mpr ⟨_, hok⟩⟩
  · exact helements p hp
  · have hindex := ((tableOk_iff 1024 _).mp hattachments).2 p hp
    simp only [recordOk, hvalues p hp, Bool.and_true, within_zero_eq_true_iff]
    omega

/-- Settles O60: what the tables hold is what their writes accept, and their numbers are distinct. -/
theorem saveWritesGoodImage : Obligations.SaveWritesGoodImage := by
  intro s hsettings htable helements hattachments
  have hrecords : (imageRecords s).all recordOk = true :=
    List.all_eq_true.mpr (recordOk_imageRecords hsettings htable helements hattachments)
  simp only [imageGood, savedFlash, decide_true, Bool.true_and, countsOk_imageRecords helements hattachments, hrecords]

end Sys2Proof.Machine
end

section
/-! The checks of every request (O4). -/

namespace Sys2Proof.Machine

/-! ## A body that does not hold its kind's fields (R170) -/

theorem noBody_of_misfit {r : Request} {own : State → State} {s : State} (h : (r.head.bodyLen != 0) = true) :
    noBody r own s = refuse r .badRequest s := if_pos (bne_iff_ne.mp h)

theorem withBody_of_misfit {α : Type} {r : Request} {b : Fit α} {own : α → State → State} {s : State} (h : b.isNone = true) :
    withBody r b own s = refuse r .badRequest s := by
  rw [Option.isNone_iff_eq_none.mp h]
  rfl

theorem wholeRead_of_misfit {r : Request} {fits : Bool} {body : State → Body} {s : State} (h : (!fits) = true) :
    wholeRead r fits body s = refuse r .badRequest s := if_neg (by simpa using h)

theorem clearIn_of_misfit {r : Request} {fits : Bool} {effect : State → State} {s : State} (h : (!fits) = true) :
    clearIn r fits effect s = refuse r .badRequest s := if_neg (by simpa using h)

theorem resultReadLatestOwn_of_misfit {r : Request} {fits : Bool} {s : State} (h : (!fits) = true) :
    resultReadLatestOwn r fits s = refuse r .badRequest s := if_neg (by simpa using h)

theorem statusReadOwn_of_misfit {r : Request} {sel : StatusSelector} {s : State} (h : (sel == .misfit) = true) :
    statusReadOwn r sel s = refuse r .badRequest s := by
  rw [beq_iff_eq.mp h]
  rfl

/-- The code that answers a body without its kind's fields: three requests look at the map's state first. -/
def misfitCode (r : Request) (s : State) : Completion :=
  match r.body with
  | .mapWrite _ => if s.map.state = .edit then .badRequest else .mapState
  | .mapDelete _ => if s.map.state = .edit then .badRequest else .mapState
  | .attachSet _ => if s.map.state = .ready then .badRequest else .mapState
  | _ => .badRequest

theorem mapWriteOwn_of_misfit {r : Request} {b : Fit (Nat × List RawElement)} {s : State} (h : b.isNone = true) :
    mapWriteOwn r b s = refuse r (if s.map.state = .edit then .badRequest else .mapState) s := by
  unfold mapWriteOwn
  split
  · exact withBody_of_misfit h
  · rfl

theorem mapDeleteOwn_of_misfit {r : Request} {b : Fit (Nat × List Nat)} {s : State} (h : b.isNone = true) :
    mapDeleteOwn r b s = refuse r (if s.map.state = .edit then .badRequest else .mapState) s := by
  unfold mapDeleteOwn
  split
  · exact withBody_of_misfit h
  · rfl

theorem attachSetOwn_of_misfit {r : Request} {b : Fit RawAttach} {s : State} (h : b.isNone = true) :
    attachSetOwn r b s = refuse r (if s.map.state = .ready then .badRequest else .mapState) s := by
  unfold attachSetOwn
  split
  · exact withBody_of_misfit h
  · rfl

/-- Every request row runs its request by a rule of its kind, which refuses a body without the kind's fields. -/
theorem exists_rule {c : Instr} {r : Request} (hc : c.request = some r) : ∃ own : State → State,
    (∀ s, exec c s = runRequest r own s) ∧ ∀ s, misfits r = true → own s = refuse r (misfitCode r s) s := by
  cases c
  case statusRead => cases hc; exact ⟨_, fun _ => rfl, fun _ hm => statusReadOwn_of_misfit hm⟩
  case unknownRequest => cases hc; exact ⟨_, fun _ => rfl, fun _ hm => nomatch hm⟩
  case tableReadChannel | tableReadCorrection | tableReadSettings | tableReadReportSlot | tableReadAlarmLine =>
    cases hc; exact ⟨_, fun _ => rfl, fun _ hm => wholeRead_of_misfit hm⟩
  case mapWrite => cases hc; exact ⟨_, fun _ => rfl, fun _ hm => mapWriteOwn_of_misfit hm⟩
  case mapDelete => cases hc; exact ⟨_, fun _ => rfl, fun _ hm => mapDeleteOwn_of_misfit hm⟩
  case attachSet => cases hc; exact ⟨_, fun _ => rfl, fun _ hm => attachSetOwn_of_misfit hm⟩
  case tallyClearAll | tallyClearFlags => cases hc; exact ⟨_, fun _ => rfl, fun _ hm => clearIn_of_misfit hm⟩
  case resultReadLatest => cases hc; exact ⟨_, fun _ => rfl, fun _ hm => resultReadLatestOwn_of_misfit hm⟩
  case mapOpen | mapClear | mapClose | searchAbort | counterSnapshot | imageLoad | imageSave | resetEngines | resetAll =>
    cases hc; exact ⟨_, fun _ => rfl, fun _ hm => noBody_of_misfit hm⟩
  case tableReadBand | tableWriteChannel | tableWriteBand | tableWriteCorrection | tableWriteSettings | tableWriteReportSlot
    | tableWriteAlarmLine | mapRead | attachDelete | attachReadByStation | attachReadByRange | tallyReadBySlot | tallyReadRanked
    | tallyReadByKey | searchStart | resultReadByNumber | directStep | directRelease | directQuery | addressSet | timeSet =>
    cases hc; exact ⟨_, fun _ => rfl, fun _ hm => withBody_of_misfit hm⟩
  all_goals cases hc

/-! ## The kind codes (R165) -/

/-- A request whose kind code is unknown is refused by its form or by its kind (R170). -/
theorem admissionRefusal_of_unknown {r : Request} (h : r.head.kind ∉ knownKinds) (s : State) :
    admissionRefusal r s = some .badRequest := by
  unfold admissionRefusal
  split <;> rfl

theorem directStepKind_not_listed : directStepKind ∉ listedKinds := by
  unfold directStepKind
  split
  · decide
  · next hfree => exact fun hmem => hfree (List.elem_eq_true_of_mem hmem)

theorem fitsKind_eq_true_iff (b : ReqBody) (k : Byte) :
    b.fitsKind k = true ↔ b.kind = some k ∨ (b.kind = none ∧ k ∉ knownKinds) := by
  unfold ReqBody.fitsKind
  cases b.kind <;> simp

theorem unnamedCode_eq (what : Unnamed) : unnamedCode what = if what = .tallyScope then .badValue else .badRequest := by
  cases what <;> rfl

/-- An event waits while something is due to begin. -/
theorem exec_of_not_quiet {c : Instr} {s : State} (hc : c.request = none)
    (hreset : ∀ strap, c ≠ .powerOn strap ∧ c ≠ .pinReset strap) (hstart : c ≠ .tlmTransactionStart) (h : ¬ Quiet s) :
    exec c s = .next s := by
  cases c
  case powerOn strap => exact absurd rfl (hreset strap).1
  case pinReset strap => exact absurd rfl (hreset strap).2
  case tlmTransactionStart => exact absurd rfl hstart
  case plantTimeTick | lossOfSignal | signalReturn | headerTestHunting | invalidHeader | validHeader | burstDesc | spectrumSeg
    | mgmtReq | frameArrival | hubTxChoice | nodeTxChoice | crcIntervalExpiry | analysisBegin | analysisCompletion | agingExpiry
    | bandIntervalExpiry | tlmReplyFrame | tlmWatchdogExpiry | byteHeard | lapseDeadline | measureDeadline | periodTimerExpiry
    | mapCloseCompletion | imageLoadCompletion | imageSaveCompletion =>
    exact inTurn_of_not_quiet _ h
  all_goals cases hc

/-- Settles O4: each row runs its request by one rule, under the checks of `runRequest`. -/
theorem requestChecks : Obligations.RequestChecks := by
  refine ⟨fun c r s hc => ?_, fun h s hbegin hkind => ?_, fun h what s he => ?_, fun c s => exec_of_not_quiet,
    ⟨directStepKind_not_listed, fun k => ?_⟩, fitsKind_eq_true_iff, fun b => ?_⟩
  · obtain ⟨own, hrow, hmisfit⟩ := exists_rule hc
    refine ⟨fun hb => ?_, fun hb code hcode => ?_, fun he hm => ?_⟩
    · rw [hrow, runRequest_of_not_mayBegin own hb]
    · rw [hrow, runRequest_of_refusal own hb hcode, refuse_eq_replied]
    · rw [hrow, runRequest_of_executes own he, hmisfit s hm, refuse_eq_replied]
      rfl
  · exact runRequest_of_refusal _ hbegin (admissionRefusal_of_unknown hkind s)
  · rw [← unnamedCode_eq]
    exact runRequest_of_executes _ he
  · rw [knownKinds, List.mem_append, List.mem_singleton]
    rfl
  · cases b with
    | unknownRequest what => cases what <;> rfl
    | _ => rfl

end Sys2Proof.Machine
end

section
/-! The requests that read (O5, O7, O8). -/

namespace Sys2Proof.Machine

/-! ## Lists written out from a number up -/

/-- The views of the slots stand where the slots do. -/
theorem getElem?_slotViewsFrom (s : State) (l : List ReportSlot) : ∀ i k : Nat, (slotViewsFrom s i l)[k]? =
    l[k]?.map (fun x => ({ entry := x.entry, queued := slotQueued s (i + k), seconds := secondsTo s x.due } : SlotView)) := by
  induction l with
  | nil => intro i k; rfl
  | cons x rest ih =>
    intro i k
    cases k with
    | zero => rfl
    | succ k =>
      simp only [slotViewsFrom, List.getElem?_cons_succ, ih]
      rw [show i + 1 + k = i + (k + 1) by omega]

theorem length_slotViews (s : State) : (slotViews s).length = s.reports.slots.length := by
  have hfrom : ∀ (l : List ReportSlot) i, (slotViewsFrom s i l).length = l.length := by
    intro l
    induction l with
    | nil => exact fun _ => rfl
    | cons x rest ih => exact fun i => congrArg (· + 1) (ih (i + 1))
  exact hfrom _ 0

theorem declaredFrom_spec (l : List BandSlot) : ∀ i, (declaredFrom i l).Pairwise (· < ·)
    ∧ ∀ n, n ∈ declaredFrom i l ↔ ∃ k x, n = i + k ∧ l[k]? = some x ∧ x.live.state = .declared := by
  induction l with
  | nil => intro i; simp [declaredFrom]
  | cons y rest ih =>
    intro i
    obtain ⟨hrising, hmem⟩ := ih (i + 1)
    have later : ∀ n, n ∈ declaredFrom (i + 1) rest ↔
        ∃ k x, n = i + (k + 1) ∧ (y :: rest)[k + 1]? = some x ∧ x.live.state = .declared := by
      intro n
      rw [hmem]
      simp only [List.getElem?_cons_succ, show ∀ k, i + 1 + k = i + (k + 1) from fun k => by omega]
    unfold declaredFrom
    split
    · next hy =>
      refine ⟨List.pairwise_cons.mpr ⟨fun n hn => ?_, hrising⟩, fun n => ?_⟩
      · obtain ⟨k, -, rfl, -⟩ := (hmem n).mp hn
        omega
      · rw [List.mem_cons, later]
        constructor
        · rintro (rfl | ⟨k, x, hn, hx⟩)
          · exact ⟨0, y, rfl, rfl, hy⟩
          · exact ⟨k + 1, x, hn, hx⟩
        · rintro ⟨k, x, hn, hx, hd⟩
          cases k with
          | zero => exact .inl hn
          | succ k => exact .inr ⟨k, x, hn, hx, hd⟩
    · next hy =>
      refine ⟨hrising, fun n => ?_⟩
      rw [later]
      constructor
      · rintro ⟨k, x, hn, hx⟩
        exact ⟨k + 1, x, hn, hx⟩
      · rintro ⟨k, x, hn, hx, hd⟩
        cases k with
        | zero => cases hx; exact absurd hd hy
        | succ k => exact ⟨k, x, hn, hx, hd⟩

/-! ## Status and the tables -/

theorem tableReadBandOwn_eq (r : Request) (q : StartCount) (s : State) : tableReadBandOwn r q s =
    if q.start ≤ 31 ∧ 1 ≤ q.count ∧ q.count ≤ 8 then
      replied r .ok (.bands ((s.bands.bands.drop q.start).take q.count)) s
    else replied r .badIndex .empty s := by
  unfold tableReadBandOwn
  simp only [startCount_within_iff]
  rfl

/-- Settles O5: each read answers with its view, the views written out by their definitions. -/
theorem statusAndTableReads : Obligations.StatusAndTableReads := by
  refine ⟨fun h sel s he => ⟨?_, rfl⟩, fun h s he => runRequest_of_executes _ he, fun h s he => runRequest_of_executes _ he,
    fun h s he => runRequest_of_executes _ he, fun h s he => runRequest_of_executes _ he,
    fun h s he => runRequest_of_executes _ he, fun h q s he => ?_,
    fun s => ⟨rfl, rfl, rfl, rfl, ⟨declaredFrom 0 s.bands.bands, rfl, ?_, fun n => ?_⟩, rfl, rfl, rfl, rfl, length_slotViews s,
      fun i x hx => ?_, rfl⟩⟩
  · refine (runRequest_of_executes _ he).trans ?_
    cases sel <;> rfl
  · refine (runRequest_withBody_of_executes _ q he).trans ?_
    rw [tableReadBandOwn_eq]
  · exact (declaredFrom_spec s.bands.bands 0).1
  · rw [(declaredFrom_spec s.bands.bands 0).2]
    constructor
    · rintro ⟨k, x, hn, hx⟩
      rw [Nat.zero_add] at hn
      exact ⟨x, hn ▸ hx⟩
    · rintro ⟨x, hx⟩
      exact ⟨n, x, (Nat.zero_add n).symm, hx⟩
  · rw [slotViews, getElem?_slotViewsFrom, hx, Nat.zero_add]
    rfl

/-! ## The tally -/

/-- The order of ranks (R61). -/
def RankOrder (a b : Nat × TallyRecord) : Prop :=
  b.2.votes < a.2.votes
    ∨ (a.2.votes = b.2.votes
        ∧ (a.2.element < b.2.element ∨ (a.2.element = b.2.element ∧ a.2.place.rank ≤ b.2.place.rank)))

theorem rankBefore_eq_true_iff (a b : Nat × TallyRecord) : rankBefore a b = true ↔
    b.2.votes < a.2.votes
      ∨ (a.2.votes = b.2.votes
          ∧ (a.2.element < b.2.element ∨ (a.2.element = b.2.element ∧ a.2.place.rank < b.2.place.rank))) := by
  simp [rankBefore, lexLess]

/-- The ranked records are all the records, in rank order. -/
theorem ranked_spec (records : Table TallyRecord) : (ranked records).Perm records ∧ (ranked records).Pairwise RankOrder := by
  refine ⟨sortBy_perm _ _, sortBy_pairwise _ _ (fun {x y z} hxy hyz => ?_) (fun {x y} h => ?_) (fun {x y} h => ?_) _⟩
  · unfold RankOrder at *
    omega
  · rw [rankBefore_eq_true_iff] at h
    unfold RankOrder
    omega
  · rw [← Bool.not_eq_true, rankBefore_eq_true_iff] at h
    unfold RankOrder
    omega

theorem tallyReadBySlotOwn_eq (r : Request) (q : StartCount) (s : State) : tallyReadBySlotOwn r q s =
    if q.start ≤ 255 ∧ 1 ≤ q.count ∧ q.count ≤ 8 then
      replied r .ok (.tallySlots (tallySummary s) (page s.tally.records q.start q.count)
        (continuation (page s.tally.records q.start q.count) q.count 255)) s
    else replied r .badValue .empty s := by
  unfold tallyReadBySlotOwn
  simp only [startCount_within_iff]
  rfl

theorem tallyReadRankedOwn_eq (r : Request) (q : StartCount) (s : State) : tallyReadRankedOwn r q s =
    if 1 ≤ q.start ∧ q.start ≤ 256 ∧ 1 ≤ q.count ∧ q.count ≤ 8 then
      replied r .ok (.tallyRanked (tallySummary s) (((ranked s.tally.records).drop (q.start - 1)).take q.count)) s
    else replied r .badValue .empty s := by
  unfold tallyReadRankedOwn
  simp only [Bool.and_eq_true, within_eq_true_iff, and_assoc]
  rfl

theorem tallyReadByKeyOwn_place (r : Request) (e : Nat) (p : Place) (s : State) : tallyReadByKeyOwn r (e, some p) s =
    if e ≤ 511 then
      match findKey s.tally.records (e, p) with
      | some (slot, x) => replied r .ok (.tallyRecord (tallySummary s) slot x) s
      | none => replied r .notFound .empty s
    else replied r .badValue .empty s := by
  unfold tallyReadByKeyOwn
  simp only [within_zero_eq_true_iff]
  rfl

/-- Settles O7: by the range checks, the key found, and the sort of the ranks. -/
theorem tallyReads : Obligations.TallyReads := by
  refine ⟨fun h q s he => ?_, fun h q s he => ?_, fun h e p s he => ?_, fun h e s he => ?_, fun s => rfl, fun records => ?_⟩
  · refine (runRequest_withBody_of_executes _ q he).trans ?_
    rw [tallyReadBySlotOwn_eq, continuation_eq]
    rfl
  · refine (runRequest_withBody_of_executes _ q he).trans ?_
    rw [tallyReadRankedOwn_eq]
  · refine (runRequest_withBody_of_executes _ (e, some p) he).trans ?_
    rw [tallyReadByKeyOwn_place]
    rfl
  · exact runRequest_withBody_of_executes _ (e, none) he
  · obtain ⟨hperm, hsorted⟩ := ranked_spec records
    exact ⟨hperm, hsorted⟩

/-! ## The results -/

theorem answerResult_getLast (r : Request) (s : State) : answerResult r s.search.log.getLast? s =
    match s.search.log.getLast? with
    | some x => replied r .ok (.result s.search.log.length ((s.search.log.head?.map (·.number)).getD 0) x.number x) s
    | none => replied r .notFound .empty s := by
  unfold answerResult
  cases hx : s.search.log.getLast? with
  | none => rfl
  | some x =>
    show answer r .ok (resultBody s x) s = _
    rw [resultBody, hx]
    rfl

theorem resultReadByNumberOwn_eq (r : Request) (n : Nat) (s : State) : resultReadByNumberOwn r n s =
    if 1 ≤ n ∧ n ≤ 65535 then answerResult r (s.search.log.find? (fun x => x.number == n)) s
    else replied r .badValue .empty s := by
  unfold resultReadByNumberOwn
  simp only [within_eq_true_iff]
  rfl

/-- Settles O8: by the number's range and whether the log holds a result. -/
theorem resultReads : Obligations.ResultReads := by
  refine ⟨fun h s he => ?_, fun h n s he => ?_, fun h s he => runRequest_of_executes _ he⟩
  · refine (runRequest_of_executes _ he).trans ?_
    exact congrArg _ (answerResult_getLast _ s)
  · refine (runRequest_withBody_of_executes _ n he).trans ?_
    rw [resultReadByNumberOwn_eq]
    rfl

end Sys2Proof.Machine
end

section
/-! The writes of the tables (O9 to O13). -/

namespace Sys2Proof.Machine

theorem ite_within_zero {α : Type} (b x : Nat) (u v : α) : (if within 0 b x = true then u else v) = if b < x then v else u := by
  simp only [within_zero_eq_true_iff, ← Nat.not_lt, ite_not]

/-! ## Channels and alarm lines -/

theorem tableWriteChannelOwn_eq (r : Request) (w : RawChannel) (s : State) : tableWriteChannelOwn r w s =
    if 7 < w.channel then replied r .badIndex .empty s
    else
      match channelOf w with
      | none => replied r .badValue .empty s
      | some c => replied r .ok .empty (setChannel w.channel c s) := by
  unfold tableWriteChannelOwn
  rw [ite_within_zero]
  cases channelOf w <;> rfl

theorem tableWriteAlarmLineOwn_eq (r : Request) (w : RawAlarm) (s : State) : tableWriteAlarmLineOwn r w s =
    if 3 < w.line then replied r .badIndex .empty s
    else
      match alarmOf w with
      | none => replied r .badValue .empty s
      | some e => replied r .ok .empty (setAlarm w.line e s) := by
  unfold tableWriteAlarmLineOwn
  rw [ite_within_zero]
  cases alarmOf w <;> rfl

theorem bandDeclared_iff (s : State) (n : Nat) :
    bandDeclared s n = true ↔ ∃ x, s.bands.bands[n]? = some x ∧ x.live.state = .declared := by
  simp [bandDeclared, Option.any_eq_true]

theorem locked_eq_false_iff (x : RxLane) : x.locked = false ↔ ∃ run expected, x.lock = .hunting run expected := by
  unfold RxLane.locked
  cases x.lock <;> simp

/-- The condition a source names, in the words of the state (R189). -/
theorem alarmCondition_iff (s : State) (src : AlarmSource) : alarmCondition s src = true ↔
    match src with
    | .fixedLow => False
    | .fixedHigh => True
    | .anyBandDeclared => ∃ x ∈ s.bands.bands, x.live.state = .declared
    | .bandDeclared n => ∃ x, s.bands.bands[n]? = some x ∧ x.live.state = .declared
    | .suspectPresent => ∃ p ∈ s.tally.records, p.2.state = .suspect
    | .searchActive => s.search.record ≠ none
    | .legStepped => ∃ p ∈ s.tlm.entries, p.2.state ≠ .pass
    | .linkDegraded => s.link.node.crc.degraded = true ∨ s.link.hub.crc.degraded = true
    | .linkDown => ∃ lane run expected, (s.link.lane lane).lock = .hunting run expected := by
  cases src with
  | fixedLow => simp [alarmCondition]
  | fixedHigh => simp [alarmCondition]
  | anyBandDeclared => simp [alarmCondition, List.any_eq_true]
  | bandDeclared n => exact bandDeclared_iff s n
  | suspectPresent => simp [alarmCondition, List.any_eq_true]
  | searchActive => simp [alarmCondition, Option.isSome_iff_ne_none]
  | legStepped => simp [alarmCondition, allPass, TrackEntry.busy]
  | linkDegraded => simp [alarmCondition]
  | linkDown =>
    simp only [alarmCondition, Bool.or_eq_true, Bool.not_eq_true', locked_eq_false_iff]
    constructor
    · rintro (hnode | hhub)
      · exact ⟨.nodeSide, hnode⟩
      · exact ⟨.hubSide, hhub⟩
    · rintro ⟨lane, hlane⟩
      cases lane with
      | nodeSide => exact .inl hlane
      | hubSide => exact .inr hlane

/-- Settles O9: the number first, then the values; the level by source and polarity. -/
theorem channelAndAlarmWrites : Obligations.ChannelAndAlarmWrites := by
  refine ⟨fun h w s he => ?_, channelOf_eq_some_iff, fun h w s he => ?_, alarmOf_eq_some_iff, fun s src pol => ?_,
    alarmCondition_iff⟩
  · refine (runRequest_withBody_of_executes _ w he).trans ?_
    rw [tableWriteChannelOwn_eq]
    rfl
  · refine (runRequest_withBody_of_executes _ w he).trans ?_
    rw [tableWriteAlarmLineOwn_eq]
    rfl
  · cases src <;> cases pol <;> rfl

/-! ## Bands and corrections -/

theorem searchUses_iff (s : State) (band : Nat) : searchUses s band = true ↔ s.search.record.map (·.band) = some band := by
  simp [searchUses, Option.any_eq_true, Option.map_eq_some_iff]

theorem tableWriteBandOwn_eq (r : Request) (w : RawBand) (s : State) : tableWriteBandOwn r w s =
    if 31 < w.band then replied r .badIndex .empty s
    else
      match bandOf w with
      | none => replied r .badValue .empty s
      | some b =>
        if s.search.record.map (·.band) = some w.band then replied r .searchActive .empty s
        else replied r .ok .empty (setBand w.band b s) := by
  unfold tableWriteBandOwn
  rw [ite_within_zero]
  simp only [searchUses_iff]
  cases bandOf w <;> rfl

/-- Settles O10: the number, the ranges, and the search's band, in that order. -/
theorem bandWrite : Obligations.BandWrite := by
  refine ⟨fun h w s he => ?_, bandOf_eq_some_iff⟩
  refine (runRequest_withBody_of_executes _ w he).trans ?_
  rw [tableWriteBandOwn_eq]
  rfl

theorem all_correctionOk_eq_false_iff (pairs : List Correction) : (!pairs.all correctionOk) = true ↔
    ∃ c ∈ pairs, 65535 < c.gain ∨ c.offset < -1000 ∨ 1000 < c.offset := by
  simp only [Bool.not_eq_true', List.all_eq_false, correctionOk_iff]
  grind

/-- Settles O11: the checks in their order; a run of pairs replaced together. -/
theorem correctionWrite : Obligations.CorrectionWrite := by
  intro h q pairs s he
  refine (runRequest_withBody_of_executes _ (q, pairs) he).trans ?_
  have hrange : (!(within 0 31 q.start && within 1 32 q.count && decide (q.start + q.count ≤ 32))) = true ↔
      31 < q.start ∨ q.count = 0 ∨ 32 < q.count ∨ 31 < q.start + q.count - 1 := by
    simp [within]
    omega
  unfold tableWriteCorrectionOwn
  simp only [hrange, all_correctionOk_eq_false_iff, Option.isSome_iff_ne_none]
  by_cases hcount : pairs.length ≠ q.count
  · rw [if_pos hcount, if_pos hcount]
    rfl
  · rw [if_neg hcount, if_neg hcount, setCorrections, replaceRun, Classical.not_not.mp hcount]
    rfl

/-! ## Settings -/

/-- Evaluating every record raises one event for each that rises by it (R57). -/
theorem evaluateRecords_some_events (promote : Nat) (records : Table TallyRecord) :
    (evaluateRecords promote some records).2 = List.replicate
      (records.filter (fun p => p.2.state == .watch && decide (promote ≤ p.2.voters.length))).length Event.newSuspect := by
  induction records with
  | nil => rfl
  | cons p rest ih =>
    obtain ⟨slot, r⟩ := p
    simp only [evaluateRecords, evaluate, stateFor, ih, List.filter_cons]
    by_cases hw : r.state = .watch
    · by_cases hp : promote ≤ r.voters.length <;> simp [hw, hp, List.replicate_succ]
    · simp [hw]

theorem intervalStart_eq (now : Nat) (n : Settings) :
    intervalStart now n = if n.mode = .auto then some (now + n.interval * 1000) else none := by
  unfold intervalStart
  cases n.mode <;> rfl

/-- The interval timer after a change of settings (R94). -/
theorem intervalAfter_eq (now : Nat) (old new : Settings) (due : Option Nat) : intervalAfter now old new due =
    if new.mode = old.mode ∧ (new.mode = .manual ∨ new.interval = old.interval) then due
    else if new.mode = .auto then some (now + new.interval * 1000) else none := by
  rw [intervalAfter, intervalStart_eq]

/-- The records and the events of a changed promote threshold (R57). -/
theorem evaluateAll_eq (s : State) : evaluateAll s =
    { s with
      tally := { s.tally with records := s.tally.records.map (fun p => (p.1,
        { p.2 with state := if s.mgmt.settings.promote ≤ p.2.voters.length then .suspect else .watch })) }
      reports := (List.replicate (s.tally.records.filter (fun p =>
        p.2.state == .watch && decide (s.mgmt.settings.promote ≤ p.2.voters.length))).length Event.newSuspect).foldl
          raiseEvent s.reports } := by
  unfold evaluateAll raiseEvents
  simp only [evaluateRecords_some, evaluateRecords_some_events, stateFor]

/-- A change of the settings, each field with its effect (R57, R59, R94, R174). -/
theorem applySettings_eq (n : Settings) (s : State) : applySettings n s =
    { s with
      mgmt := { s.mgmt with settings := n }
      bands := { s.bands with intervalDue :=
        if n.mode = s.mgmt.settings.mode ∧ (n.mode = .manual ∨ n.interval = s.mgmt.settings.interval)
        then s.bands.intervalDue
        else if n.mode = .auto then some (s.clocks.elapsed + n.interval * 1000) else none }
      tally := { s.tally with
        agingDue := if n.aging = s.mgmt.settings.aging then s.tally.agingDue else s.clocks.elapsed + n.aging * 1000
        records :=
          if n.promote = s.mgmt.settings.promote then s.tally.records
          else s.tally.records.map (fun p => (p.1,
            { p.2 with state := if n.promote ≤ p.2.voters.length then .suspect else .watch })) }
      reports :=
        if n.promote = s.mgmt.settings.promote then s.reports
        else (List.replicate (s.tally.records.filter (fun p =>
          p.2.state == .watch && decide (n.promote ≤ p.2.voters.length))).length Event.newSuspect).foldl
            raiseEvent s.reports } := by
  unfold applySettings
  simp only [intervalAfter_eq]
  by_cases hp : n.promote = s.mgmt.settings.promote
  · simp only [if_pos hp]
    rfl
  · simp only [if_neg hp, evaluateAll_eq]
    rfl

/-- The record that a whole write makes. -/
theorem settingsOf_rawSettings (n : Settings) : settingsOf (rawSettings n) = n := rfl

/-- Settles O12: the first fault refuses, else every field takes effect. -/
theorem settingsWrite : Obligations.SettingsWrite := by
  refine ⟨fun h w s he => ⟨fun f hf => ?_, fun n hf hw => ?_⟩, settingsFault_eq, fun w => ⟨settingsFault_eq_none_iff w, ?_, ?_⟩⟩
  · refine (runRequest_withBody_of_executes _ w he).trans ?_
    rw [tableWriteSettingsOwn, hf]
    rfl
  · refine (runRequest_withBody_of_executes _ w he).trans ?_
    have hn : settingsOf w = n := by rw [hw]; exact settingsOf_rawSettings n
    rw [tableWriteSettingsOwn, hf]
    dsimp only
    rw [hn, applySettings_eq]
    rfl
  · intro hwindow
    rw [settingsFault_eq, if_pos hwindow]
  · intro hwindow hpromote
    rw [settingsFault_eq, if_neg (Nat.not_lt.mpr hwindow), if_pos hpromote]

/-! ## Report slots -/

/-- A slot that stands nowhere in the queue is appended to it. -/
theorem enqueueSlot_of_absent {slot : Nat} {q : List QueuedSlot} (h : ∀ x ∈ q, x.slot ≠ slot) (cause : Cause) :
    enqueueSlot slot cause q = q ++ [{ slot := slot, cause := cause, count := 1 }] :=
  if_neg (by simpa using h)

theorem periodStart_eq (now : Nat) (e : SlotEntry) : periodStart now e =
    if e.enabled = true ∧ e.trigger = .periodic then e.period.map (fun p => now + p * 1000) else none := by
  unfold periodStart
  simp only [Bool.and_eq_true, beq_iff_eq]
  rfl

/-- An accepted write of a slot (R181). -/
theorem writeSlot_eq (now slot : Nat) (e : SlotEntry) (r : Reports) : writeSlot now slot e r =
    { r with
      slots := r.slots.set slot { entry := e, due :=
        if e.enabled = true ∧ e.trigger = .periodic then e.period.map (fun p => now + p * 1000) else none }
      queue := if e.enabled = true ∧ e.trigger = .now then
          r.queue.filter (fun x => x.slot != slot) ++ [{ slot := slot, cause := .now, count := 1 }]
        else r.queue.filter (fun x => x.slot != slot) } := by
  have habsent : ∀ x ∈ r.queue.filter (fun x => x.slot != slot), x.slot ≠ slot := fun x hx =>
    bne_iff_ne.mp (List.mem_filter.mp hx).2
  unfold writeSlot
  simp only [periodStart_eq, enqueueSlot_of_absent habsent, Bool.and_eq_true, beq_iff_eq]

theorem tableWriteReportSlotOwn_eq (r : Request) (w : RawSlot) (s : State) : tableWriteReportSlotOwn r w s =
    if slotShapeOk w = false then replied r .badRequest .empty s
    else if 7 < w.slot then replied r .badIndex .empty s
    else
      match slotOf w with
      | none => replied r .badValue .empty s
      | some e => replied r .ok .empty { s with reports := writeSlot s.clocks.elapsed w.slot e s.reports } := by
  unfold tableWriteReportSlotOwn
  rw [ite_within_zero]
  cases slotShapeOk w with
  | false => rfl
  | true => cases slotOf w <;> rfl

/-- Settles O13: the form, the number, the values; the slot leaves the queue before it may enter it again. -/
theorem reportSlotWrite : Obligations.ReportSlotWrite := by
  refine ⟨fun h w s he => ?_, slotShapeOk_iff, slotOf_eq_some_iff⟩
  refine (runRequest_withBody_of_executes _ w he).trans ?_
  rw [tableWriteReportSlotOwn_eq]
  simp only [writeSlot_eq]
  rfl

end Sys2Proof.Machine
end

section
/-! The requests that edit, close and attach, and validation (O14 to O17). -/

namespace Sys2Proof.Machine

/-! ## MAP_OPEN (R5) -/

theorem allPass_eq_false_iff (entries : Table TrackEntry) : (!allPass entries) = true ↔ ∃ p ∈ entries, p.2.state ≠ .pass := by
  rw [Bool.not_eq_true', ← Bool.not_eq_true, allPass_eq_true_iff]
  simp

theorem openMap_eq (s : State) : openMap s =
    { s with
      map := { s.map with state := .edit }
      tally := { s.tally with records := [] }
      echo := if s.map.state = .ready then
          { s.echo with analysis := s.echo.analysis.map (fun a => { a with mapLeft := true }) } else s.echo } := by
  unfold openMap leaveReady
  by_cases hready : s.map.state = .ready
  · rw [if_pos hready, if_pos hready]; rfl
  · rw [if_neg hready, if_neg hready]; rfl

theorem mapOpenOwn_eq (r : Request) (s : State) : mapOpenOwn r s =
    if s.map.state = .edit then replied r .mapState .empty s
    else if s.search.record ≠ none then replied r .searchActive .empty s
    else if ∃ p ∈ s.tlm.entries, p.2.state ≠ .pass then replied r .legBusy .empty s
    else replied r .ok .empty (openMap s) := by
  unfold mapOpenOwn
  simp only [allPass_eq_false_iff, Option.isSome_iff_ne_none]
  rfl

theorem runRequest_noBody_of_executes {r : Request} {s : State} (own : State → State) (he : Executes r s)
    (hbody : r.head.bodyLen = 0) : runRequest r (noBody r own) s = .next (own s) := by
  rw [runRequest_of_executes _ he, noBody_of_zero own s hbody]

/-- Settles O14: the refusals in their order, then the map in EDIT. -/
theorem mapOpen : Obligations.MapOpen := by
  intro h s he hbody
  refine (runRequest_noBody_of_executes _ he hbody).trans ?_
  rw [mapOpenOwn_eq, openMap_eq]
  rfl

/-! ## The edits (R6 to R9) -/

/-- The position of the first bad record, counted from 1. -/
theorem firstBadElement_eq (l : List RawElement) : ∀ i,
    firstBadElement i l = (l.findIdx? (fun r => !elementOk r)).map (· + i) := by
  induction l with
  | nil => exact fun _ => rfl
  | cons w rest ih =>
    intro i
    cases hw : elementOk w
    · simp [firstBadElement, List.findIdx?_cons, hw]
    · simp [firstBadElement, List.findIdx?_cons, hw, ih, Option.map_map, Function.comp_def, Nat.add_comm 1, Nat.add_assoc]

theorem deleteElements_eq (numbers : List Nat) (t : Table Element) :
    deleteElements numbers t = t.filter (fun p => decide (p.1 ∉ numbers)) := by
  induction numbers generalizing t with
  | nil => exact (List.filter_eq_self.mpr fun p _ => by simp).symm
  | cons n rest ih =>
    show deleteElements rest (tableDel t n) = _
    rw [ih, tableDel, List.filter_filter]
    refine List.filter_congr fun p _ => ?_
    by_cases hn : p.1 = n <;> simp [hn]

theorem not_within_one (n : Nat) : (!within 1 32 n) = true ↔ n = 0 ∨ 32 < n := by
  simp [within]

theorem mapWriteOwn_eq (r : Request) (n : Nat) (records : List RawElement) (s : State) : mapWriteOwn r (some (n, records)) s =
    if s.map.state ≠ .edit then replied r .mapState .empty s
    else if records.length ≠ n then replied r .badRequest .empty s
    else if n = 0 ∨ 32 < n then replied r .badValue .empty s
    else
      match records.findIdx? (fun r => !elementOk r) with
      | some i => replied r .badValue (.position (i + 1)) s
      | none =>
        let t := records.foldl (fun t r => tableSet t r.number (elementOf r)) s.map.elements
        replied r .ok (.elementCount t.length) (setElements t s) := by
  unfold mapWriteOwn
  rw [ite_not]
  refine ite_congr rfl (fun _ => ?_) (fun _ => rfl)
  show mapWriteFields r (n, records) s = _
  unfold mapWriteFields
  simp only [not_within_one, firstBadElement_eq]
  cases records.findIdx? (fun r => !elementOk r) <;> rfl

theorem mapDeleteOwn_eq (r : Request) (n : Nat) (numbers : List Nat) (s : State) : mapDeleteOwn r (some (n, numbers)) s =
    if s.map.state ≠ .edit then replied r .mapState .empty s
    else if numbers.length ≠ n then replied r .badRequest .empty s
    else if n = 0 ∨ 32 < n ∨ ∃ x ∈ numbers, 511 < x then replied r .badValue .empty s
    else
      let t := s.map.elements.filter (fun p => decide (p.1 ∉ numbers))
      replied r .ok (.deleteCounts (s.map.elements.length - t.length) t.length) (setElements t s) := by
  have hrange : (!(within 1 32 n && numbers.all (within 0 511))) = true ↔ n = 0 ∨ 32 < n ∨ ∃ x ∈ numbers, 511 < x := by
    rw [Bool.not_and, Bool.or_eq_true, not_within_one, or_assoc]
    simp [within]
  unfold mapDeleteOwn
  rw [ite_not]
  refine ite_congr rfl (fun _ => ?_) (fun _ => rfl)
  show mapDeleteFields r (n, numbers) s = _
  unfold mapDeleteFields
  simp only [hrange, deleteElements_eq]
  rfl

/-- Settles O15: the map's state, the body's length, then the values; the element table by the records in turn. -/
theorem mapEdits : Obligations.MapEdits := by
  refine ⟨fun h n records s he => ?_, fun h n numbers s he => ?_, fun h s he => ?_, elementOk_iff⟩
  · refine (runRequest_of_executes _ he).trans ?_
    rw [mapWriteOwn_eq]
    rfl
  · refine (runRequest_of_executes _ he).trans ?_
    rw [mapDeleteOwn_eq]
    rfl
  · exact runRequest_of_executes _ he

/-! ## The close (R10, R11) -/

theorem mapCloseOwn_eq (r : Request) (s : State) : mapCloseOwn r s =
    if s.map.state ≠ .edit then replied r .mapState .empty s
    else if ∃ p ∈ s.tlm.entries, p.2.state ≠ .pass then replied r .legBusy .empty s
    else beginClose s := by
  unfold mapCloseOwn
  simp only [allPass_eq_false_iff]
  rfl

theorem attachmentPass_eq (t : Table Element) (as : Table Attachment) : attachmentPass t as =
    as.map (fun p => (p.1, if attachmentFits t p.2 then p.2 else { p.2 with validity := .stale })) := rfl

/-- The close in progress ends in one of three ways, and its request is answered (R11). -/
theorem completeClose_of_closing {r : Request} {rest : List Request} {s : State} (hclosing : s.map.closing = true)
    (hhead : s.mgmt.requests = r :: rest) : completeClose s =
      if s.map.elements = [] then replied r .ok .empty (becomeEmpty s)
      else
        match validate s.map.elements with
        | none => replied r .ok .empty (becomeReady s)
        | some e =>
          replied r .badValue (.mapError e) { s with map := { s.map with error := some e, closing := false } } := by
  have answered {u : State} (code : Completion) (body : Body) (hu : u.mgmt = s.mgmt) :
      answerHead code body u = replied r code body u := answerHead_cons code body (hu ▸ hhead)
  unfold completeClose
  rw [if_pos hclosing]
  split
  · exact answered _ _ rfl
  · cases validate s.map.elements with
    | none => exact answered _ _ rfl
    | some e => exact answered (u := { s with map := { s.map with error := some e, closing := false } }) _ _ rfl

/-! ## Validation (R12) -/

/-- A check's finding: the lowest element that fails it, or that none does. -/
structure Finds (t : Table Element) (found : Option Nat) (reason : MapReason) : Prop where
  absent : found = none ↔ ∀ n, ¬ failsCheck t reason n
  lowest : ∀ n, found = some n ↔ failsCheck t reason n ∧ ∀ m, m < n → ¬ failsCheck t reason m

/-- A check by a test of each element. -/
theorem finds_lowest {t : Table Element} (h : tableOk 512 t = true) {test : Nat → Element → Bool} {reason : MapReason}
    (hfails : ∀ n, failsCheck t reason n ↔ ∃ r, tableGet t n = some r ∧ test n r = true) :
    Finds t (lowest t test) reason := by
  have hpasses : ∀ n, ¬ failsCheck t reason n ↔ ∀ r, tableGet t n = some r → test n r = false := fun n => by
    rw [hfails]
    simp
  refine ⟨?_, fun n => ?_⟩
  · rw [lowest_eq_none_iff h]
    exact forall_congr' fun n => (hpasses n).symm
  · rw [lowest_eq_some_iff h, hfails]
    refine and_congr_right fun _ => ⟨fun hlow m hm => (hpasses m).mpr fun r hr => hlow m r hm hr, fun hlow m r hm hr => ?_⟩
    exact (hpasses m).mp (hlow m hm) r hr

theorem finds_rootInvalid (t : Table Element) : Finds t (rootFault t) .rootInvalid := by
  have hfault : rootFault t = none ↔ ∃ r, tableGet t 0 = some r ∧ r.kind = .node ∧ r.parent = none := by
    unfold rootFault
    cases tableGet t 0 <;> simp
  have hroot : ∀ n, rootFault t = some n → n = 0 := by
    intro n hn
    unfold rootFault at hn
    split at hn
    · split at hn <;> cases hn; rfl
    · cases hn; rfl
  refine ⟨?_, fun n => ⟨fun hn => ?_, fun ⟨⟨hn, hfails⟩, _⟩ => ?_⟩⟩
  · rw [hfault]
    exact ⟨fun hr n hn => hn.2 hr, fun hn => Classical.byContradiction fun hr => hn 0 ⟨rfl, hr⟩⟩
  · obtain rfl := hroot n hn
    exact ⟨⟨rfl, fun hr => by rw [hfault.mpr hr] at hn; cases hn⟩, fun m hm => absurd hm (Nat.not_lt_zero m)⟩
  · cases hf : rootFault t with
    | none => exact absurd (hfault.mp hf) hfails
    | some m => rw [hn, hroot m hf]

theorem exists_child_iff {t : Table Element} (h : tableOk 512 t = true) (n : Nat) :
    t.any (fun p => p.2.parent == some n) = true ↔ ∃ m x, tableGet t m = some x ∧ x.parent = some n := by
  simp only [List.any_eq_true, beq_iff_eq, tableGet_eq_some_iff h]
  exact ⟨fun ⟨p, hp, hn⟩ => ⟨p.1, p.2, hp, hn⟩, fun ⟨m, x, hx, hn⟩ => ⟨(m, x), hx, hn⟩⟩

theorem exists_lower_leg_iff {t : Table Element} (h : tableOk 512 t = true) (n a : Nat) :
    t.any (fun p => decide (p.1 < n) && p.2.legAddress == a) = true ↔
      ∃ m x, m < n ∧ tableGet t m = some x ∧ x.legAddress = a := by
  simp only [List.any_eq_true, Bool.and_eq_true, decide_eq_true_eq, beq_iff_eq, tableGet_eq_some_iff h]
  exact ⟨fun ⟨p, hp, hn, ha⟩ => ⟨p.1, p.2, hn, hp, ha⟩, fun ⟨m, x, hn, hx, ha⟩ => ⟨(m, x), hx, hn, ha⟩⟩

theorem portsOk_eq_false_iff (p : Option (Fin 256)) : (!portsOk p) = true ↔ p ≠ some 2 ∧ p ≠ some 4 ∧ p ≠ some 8 := by
  simp [portsOk, and_assoc]

/-! ### The count of legs (check 9) -/

/-- In a table with rising numbers an entry stands after those of a lower number. -/
theorem getElem?_eq_some_iff_count {α : Type} {l : Table α} (h : l.Pairwise (fun p q => p.1 < q.1)) (k : Nat) (p : Nat × α) :
    l[k]? = some p ↔ p ∈ l ∧ (l.filter (fun q => decide (q.1 < p.1))).length = k := by
  induction l generalizing k with
  | nil => simp
  | cons q rest ih =>
    obtain ⟨hfirst, hrest⟩ := List.pairwise_cons.mp h
    have hself : (q :: rest).filter (fun x => decide (x.1 < q.1)) = [] := by
      refine List.filter_eq_nil_iff.mpr fun x hx => ?_
      obtain rfl | hx := List.mem_cons.mp hx
      · simp
      · simpa using Nat.le_of_lt (hfirst x hx)
    have hlater (hp : p ∈ rest) : ((q :: rest).filter (fun x => decide (x.1 < p.1))).length
        = (rest.filter (fun x => decide (x.1 < p.1))).length + 1 := by
      rw [List.filter_cons_of_pos (by simpa using hfirst p hp), List.length_cons]
    cases k with
    | zero =>
      refine ⟨fun hp => ?_, fun ⟨hp, hcount⟩ => ?_⟩
      · cases hp
        exact ⟨List.mem_cons_self .., by rw [hself]; rfl⟩
      · obtain rfl | hp := List.mem_cons.mp hp
        · rfl
        · rw [hlater hp] at hcount; cases hcount
    | succ k =>
      rw [List.getElem?_cons_succ, ih hrest]
      refine ⟨fun ⟨hp, hcount⟩ => ⟨List.mem_cons_of_mem q hp, by rw [hlater hp, hcount]⟩, fun ⟨hp, hcount⟩ => ?_⟩
      obtain rfl | hp := List.mem_cons.mp hp
      · rw [hself] at hcount; cases hcount
      · rw [hlater hp] at hcount
        exact ⟨hp, Nat.succ.inj hcount⟩

theorem carriesLeg_of_mem {t : Table Element} (h : tableOk 512 t = true) {p : Nat × Element} (hp : p ∈ t) :
    carriesLeg t p.1 = (p.2.legAddress != 0) := by
  simp [carriesLeg, legOf, tableGet_of_mem h hp]

theorem legElements_eq {t : Table Element} (h : tableOk 512 t = true) :
    legElements t = (t.filter (fun p => p.2.legAddress != 0)).map (·.1) := by
  rw [legElements, elementNumbers, List.filter_map]
  exact congrArg _ (List.filter_congr fun p hp => carriesLeg_of_mem h hp)

theorem finds_legCount {t : Table Element} (h : tableOk 512 t = true) :
    Finds t ((legElements t)[64]?) .legCountExceeded := by
  have sorted : (t.filter (fun p => p.2.legAddress != 0)).Pairwise (fun p q => p.1 < q.1) := ((tableOk_iff _ _).mp h).1.filter _
  have hfails : ∀ n, failsCheck t .legCountExceeded n ↔ (legElements t)[64]? = some n := by
    intro n
    rw [legElements_eq h, List.getElem?_map, Option.map_eq_some_iff]
    constructor
    · rintro ⟨r, hr, hleg, hcount⟩
      refine ⟨(n, r), (getElem?_eq_some_iff_count sorted 64 _).mpr ⟨List.mem_filter.mpr ⟨mem_of_tableGet hr, by simpa using hleg⟩, ?_⟩, rfl⟩
      rw [List.filter_filter]
      exact hcount
    · rintro ⟨p, hp, rfl⟩
      obtain ⟨hmem, hcount⟩ := (getElem?_eq_some_iff_count sorted 64 p).mp hp
      obtain ⟨hmem, hleg⟩ := List.mem_filter.mp hmem
      rw [List.filter_filter] at hcount
      exact ⟨p.2, tableGet_of_mem h hmem, bne_iff_ne.mp hleg, hcount⟩
  refine ⟨?_, fun n => ⟨fun hn => ⟨(hfails n).mpr hn, fun m hm hf => ?_⟩, fun hn => (hfails n).mp hn.1⟩⟩
  · rw [Option.eq_none_iff_forall_ne_some]
    exact forall_congr' fun n => not_congr (hfails n).symm
  · rw [(hfails m).mp hf] at hn
    cases hn
    exact Nat.lt_irrefl _ hm

/-- Each check of `mapChecks` finds what fails it. -/
theorem finds_of_mem_mapChecks {t : Table Element} (h : tableOk 512 t = true) : ∀ c ∈ mapChecks t, Finds t c.1 c.2 := by
  simp only [mapChecks, List.forall_mem_cons, List.not_mem_nil, false_implies, implies_true, and_true]
  refine ⟨finds_rootInvalid t, ?_, ?_, ?_, ?_, ?_, ?_, ?_, finds_legCount h, ?_, ?_⟩
  · exact finds_lowest h fun n => by simp [failsCheck]
  · refine finds_lowest h fun n => ?_
    simp only [failsCheck, Bool.and_eq_true, bne_iff_ne, Option.isNone_iff_eq_none, Option.bind_eq_none_iff]
  · exact finds_lowest h fun n => by simp [failsCheck]
  · refine finds_lowest h fun n => ?_
    simp [failsCheck]
  · refine finds_lowest h fun n => ?_
    simp only [failsCheck, Bool.and_eq_true, beq_iff_eq, exists_child_iff h]
  · refine finds_lowest h fun n => ?_
    simp only [failsCheck, Bool.and_eq_true, beq_iff_eq, portsOk_eq_false_iff]
  · refine finds_lowest h fun n => ?_
    simp only [failsCheck, Bool.and_eq_true, bne_iff_ne, exists_lower_leg_iff h]
  · refine finds_lowest h fun n => ?_
    have hcount : legCount t n = ((pathOf t n).filter (fun e => legOf t e != 0)).length := rfl
    simp only [failsCheck, hcount, decide_eq_true_eq, exists_and_right]
  · refine finds_lowest h fun n => ?_
    simp only [failsCheck, isHead, Bool.and_eq_true, Bool.or_eq_true, beq_iff_eq, decide_eq_true_eq]
    refine exists_congr fun r => and_congr_right fun hr => ?_
    simp [carriesLeg, legOf, hr]

theorem idxOf_cons_of_ne {α : Type} [DecidableEq α] {x y : α} (rest : List α) (h : x ≠ y) :
    (x :: rest).idxOf y = rest.idxOf y + 1 := by
  rw [List.idxOf_cons, beq_eq_false_iff_ne.mpr h, cond_false]

/-- The first finding of checks in an order: the first failing check, with the lowest element that fails it. -/
theorem findSome_checks {t : Table Element} {l : List (Option Nat × MapReason)} (hl : ∀ c ∈ l, Finds t c.1 c.2)
    (hnodup : (l.map (·.2)).Nodup) (n : Nat) (reason : MapReason) :
    l.findSome? (fun c => c.1.map (fun e => ({ element := e, reason := c.2 } : MapError))) = some { element := n, reason := reason } ↔
      reason ∈ l.map (·.2) ∧ failsCheck t reason n ∧ (∀ m, m < n → ¬ failsCheck t reason m)
        ∧ ∀ earlier m, (l.map (·.2)).idxOf earlier < (l.map (·.2)).idxOf reason → ¬ failsCheck t earlier m := by
  induction l with
  | nil => simp
  | cons c rest ih =>
    obtain ⟨found, first⟩ := c
    have hfirst : Finds t found first := hl _ (List.mem_cons_self ..)
    obtain ⟨hnew, hnodup⟩ := List.nodup_cons.mp hnodup
    have hrest := ih (fun c hc => hl c (List.mem_cons_of_mem _ hc)) hnodup
    simp only [List.map_cons, List.mem_cons] at hnew ⊢
    by_cases hreason : reason = first
    · subst hreason
      have hzero : ((reason :: rest.map (·.2)).idxOf reason) = 0 := List.idxOf_cons_self
      simp only [hzero, Nat.not_lt_zero, false_implies, implies_true, and_true, true_or, true_and]
      rw [← hfirst.lowest n]
      cases found with
      | some k => simp
      | none =>
        have hnone : ¬ (rest.findSome? (fun c => c.1.map (fun e => ({ element := e, reason := c.2 } : MapError)))
            = some { element := n, reason := reason }) := fun hsome => hnew (hrest.mp hsome).1
        simpa using hnone
    · have hidx : (first :: rest.map (·.2)).idxOf reason = (rest.map (·.2)).idxOf reason + 1 :=
        idxOf_cons_of_ne _ (Ne.symm hreason)
      rw [hidx]
      cases found with
      | some k =>
        have hk := (hfirst.lowest k).mp rfl
        simp only [List.findSome?_cons, Option.map_some, Option.some.injEq, MapError.mk.injEq]
        refine ⟨fun ⟨_, heq⟩ => absurd heq.symm hreason, fun ⟨_, _, _, hearlier⟩ => absurd hk.1 (hearlier first k ?_)⟩
        rw [List.idxOf_cons_self]
        exact Nat.succ_pos _
      | none =>
        have hpass := hfirst.absent.mp rfl
        simp only [List.findSome?_cons, Option.map_none, hrest, hreason, false_or]
        refine and_congr_right fun _ => and_congr_right fun _ => and_congr_right fun _ => ?_
        refine ⟨fun hearlier earlier m hlt => ?_, fun hearlier earlier m hlt => hearlier earlier m ?_⟩
        · by_cases he : earlier = first
          · exact he ▸ hpass m
          · rw [idxOf_cons_of_ne _ (Ne.symm he)] at hlt
            exact hearlier earlier m (Nat.lt_of_succ_lt_succ hlt)
        · by_cases he : earlier = first
          · rw [he, List.idxOf_cons_self]
            exact Nat.succ_pos _
          · rw [idxOf_cons_of_ne _ (Ne.symm he)]
            exact Nat.succ_lt_succ hlt

theorem mapChecks_reasons (t : Table Element) : (mapChecks t).map (·.2) = checkOrder := rfl

theorem mem_checkOrder (reason : MapReason) : reason ∈ checkOrder := by cases reason <;> decide

theorem validate_eq_none_iff {t : Table Element} (h : tableOk 512 t = true) :
    validate t = none ↔ ∀ reason n, ¬ failsCheck t reason n := by
  have hfinds := finds_of_mem_mapChecks h
  refine ⟨fun hnone reason => ?_, fun hpass => ?_⟩
  · obtain ⟨c, hc, rfl⟩ := List.mem_map.mp ((mapChecks_reasons t).symm ▸ mem_checkOrder reason)
    exact (hfinds c hc).absent.mp (check_of_validate hnone hc)
  · exact List.findSome?_eq_none_iff.mpr fun c hc => Option.map_eq_none_iff.mpr ((hfinds c hc).absent.mpr (hpass c.2))

theorem validate_eq_some_iff {t : Table Element} (h : tableOk 512 t = true) (n : Nat) (reason : MapReason) :
    validate t = some { element := n, reason := reason } ↔
      failsCheck t reason n ∧ (∀ m, m < n → ¬ failsCheck t reason m)
        ∧ ∀ earlier m, checkOrder.idxOf earlier < checkOrder.idxOf reason → ¬ failsCheck t earlier m := by
  have hchecks := findSome_checks (finds_of_mem_mapChecks h) (by rw [mapChecks_reasons]; decide) n reason
  rw [mapChecks_reasons] at hchecks
  exact hchecks.trans (and_iff_right (mem_checkOrder reason))

/-! ## The rebuild (R119) -/

theorem attachmentFits_iff (t : Table Element) (a : Attachment) : attachmentFits t a = true ↔
    ∃ e, tableGet t a.element = some e ∧ e.kind = .tap ∧ a.port ≤ (e.tapPorts.map (·.val)).getD 0 := by
  unfold attachmentFits
  cases tableGet t a.element <;> simp

theorem mem_legAddresses_iff (t : Table Element) (a : Nat) :
    a ∈ legAddresses t ↔ a ≠ 0 ∧ ∃ n, n ∈ t.map (·.1) ∧ legOf t n = a := by
  simp only [legAddresses, legElements, elementNumbers, List.mem_map, List.mem_filter, carriesLeg, bne_iff_ne]
  constructor
  · rintro ⟨n, ⟨hn, hleg⟩, rfl⟩
    exact ⟨hleg, n, hn, rfl⟩
  · rintro ⟨hleg, n, hn, rfl⟩
    exact ⟨n, ⟨hn, hleg⟩, rfl⟩

/-- The addresses added to a table are read as new entries where they were vacant. -/
theorem tableGet_foldl_add (addresses : List Nat) (a : Nat) : ∀ t : Table TrackEntry,
    tableGet (addresses.foldl (fun es a => if (tableGet es a).isSome then es else tableSet es a newEntry) t) a =
      (tableGet t a).or (if a ∈ addresses then some newEntry else none) := by
  induction addresses with
  | nil => intro t; simp
  | cons b rest ih =>
    intro t
    rw [List.foldl_cons, ih]
    by_cases hb : a = b
    · subst hb
      split
      · next hsome =>
        obtain ⟨e, he⟩ := Option.isSome_iff_exists.mp hsome
        simp [he]
      · next hnone =>
        rw [Bool.not_eq_true, Option.isSome_eq_false_iff, Option.isNone_iff_eq_none] at hnone
        simp [tableGet_tableSet_same, hnone]
    · have hget : tableGet (if (tableGet t b).isSome then t else tableSet t b newEntry) a = tableGet t a := by
        split
        · rfl
        · exact tableGet_tableSet_ne t newEntry hb
      rw [hget]
      simp [hb]

/-- What the rebuilt table holds under an address (R119). -/
theorem tableGet_rebuild (addresses : List Nat) {t : Telemetry} (h : tableOk 255 t.entries = true) (a : Nat) :
    tableGet (rebuild addresses t).entries a =
      if a ∈ addresses then
        match tableGet t.entries a with
        | some e => some { e with retained := false }
        | none => some newEntry
      else (tableGet t.entries a).bind (fun e => if e.state = .pass then none else some { e with retained := true }) := by
  have hkept : tableGet ((t.entries.filter (fun p => addresses.contains p.1 || p.2.busy)).map
      (fun p => (p.1, { p.2 with retained := !addresses.contains p.1 }))) a =
        ((tableGet t.entries a).filter (fun e => addresses.contains a || e.busy)).map
          (fun e => { e with retained := !addresses.contains a }) := by
    rw [← tableGet_filter (fun p => addresses.contains p.1 || p.2.busy) h]
    exact tableGet_map _ (fun k (e : TrackEntry) => { e with retained := !addresses.contains k }) a
  unfold rebuild
  rw [tableGet_foldl_add, hkept]
  by_cases ha : a ∈ addresses
  · cases tableGet t.entries a <;> simp [ha, Option.filter_some]
  · cases he : tableGet t.entries a with
    | none => simp [ha]
    | some e => by_cases hpass : e.state = .pass <;> simp [ha, TrackEntry.busy, hpass, Option.filter_some]

/-- Settles O16: the close and its three ends; each check by its test, the first one that fails; the rebuild by address. -/
theorem mapCloseAndCompletion : Obligations.MapCloseAndCompletion := by
  refine ⟨fun h s he hbody => ?_, fun r rest s hquiet hclosing hhead => ?_,
    fun t ht => ⟨validate_eq_none_iff ht, validate_eq_some_iff ht⟩, attachmentFits_iff, mem_legAddresses_iff,
    fun addresses t ht => ⟨rfl, fun a => ?_⟩⟩
  · refine (runRequest_noBody_of_executes _ he hbody).trans ?_
    rw [mapCloseOwn_eq]
    rfl
  · refine (inTurn_of_quiet _ hquiet).trans ?_
    rw [completeClose_of_closing hclosing hhead]
    split
    · rfl
    · cases validate s.map.elements <;> rfl
  · rw [tableGet_rebuild addresses ht]
    split
    · cases tableGet t.entries a <;> rfl
    · rfl

/-! ## ATTACH_SET (R17 to R19) -/

theorem attachOk_iff (t : Table Element) (w : RawAttach) : attachOk t w = true ↔
    w.station ≠ 0 ∧ w.drop ≤ 2000 ∧ 1 ≤ w.port
      ∧ ∃ e, tableGet t w.element = some e ∧ e.kind = .tap ∧ ∃ n, (w.port ≤ n.val ∧ e.tapPorts = some n) := by
  simp only [attachOk, Bool.and_eq_true, bne_iff_ne, within_zero_eq_true_iff]
  cases tableGet t w.element with
  | none => simp
  | some e =>
    have hport : within 1 ((e.tapPorts.map (·.val)).getD 0) w.port = true ↔
        1 ≤ w.port ∧ ∃ n, (w.port ≤ n.val ∧ e.tapPorts = some n) := by
      rw [within_eq_true_iff]
      cases e.tapPorts with
      | none => simp; omega
      | some n => simp
    simp only [Bool.and_eq_true, beq_iff_eq, hport, Option.some.injEq, exists_eq_left']
    exact ⟨fun ⟨⟨hs, hk, hp, hn⟩, hd⟩ => ⟨hs, hd, hp, hk, hn⟩, fun ⟨hs, hd, hp, hk, hn⟩ => ⟨⟨hs, hk, hp, hn⟩, hd⟩⟩

theorem lowestFree_zero_iff {α : Type} (t : Table α) (bound : Nat) :
    (∀ i, lowestFree t bound 0 = some i ↔ i < bound ∧ tableGet t i = none ∧ ∀ j, j < i → tableGet t j ≠ none)
      ∧ (lowestFree t bound 0 = none ↔ ∀ j, j < bound → tableGet t j ≠ none) := by
  obtain ⟨hsome, hnone⟩ := lowestFree_iff t bound 0
  simp only [Nat.zero_le, true_and, Nat.zero_add, true_implies] at hsome hnone
  exact ⟨hsome, hnone⟩

theorem attachSetOwn_eq (r : Request) (w : RawAttach) (s : State) : attachSetOwn r (some w) s =
    if s.map.state ≠ .ready then replied r .mapState .empty s
    else if attachOk s.map.elements w = false then replied r .badValue .empty s
    else
      match indexOfStation s.map.attachments w.station with
      | some (i, a) =>
        replied r .ok (.attachIndex i)
          (if a.element = w.element ∧ a.port = w.port then setAttachments (tableSet s.map.attachments i (attachmentOf w)) s
           else withoutVoter i (setAttachments (tableSet s.map.attachments i (attachmentOf w)) s))
      | none =>
        match lowestFree s.map.attachments 1024 0 with
        | some i =>
          replied r .ok (.attachIndex i) (setAttachments (tableSet s.map.attachments i (attachmentOf w)) s)
        | none => replied r .tableFull .empty s := by
  unfold attachSetOwn
  rw [ite_not]
  refine ite_congr rfl (fun _ => ?_) (fun _ => rfl)
  show attachSetFields r w s = _
  unfold attachSetFields
  cases attachOk s.map.elements w with
  | false => rfl
  | true =>
    simp only [if_true, Bool.true_eq_false, if_false]
    cases indexOfStation s.map.attachments w.station with
    | some found =>
      obtain ⟨i, a⟩ := found
      simp only [removeVoter_eq, answer_eq_replied]
    | none => cases lowestFree s.map.attachments 1024 0 <;> rfl

/-- Settles O17: the map's state, the values, then the station's own index or the lowest free one. -/
theorem attachSet : Obligations.AttachSet := by
  refine ⟨fun h w s he => ?_, lowestFree_zero_iff, attachOk_iff⟩
  dsimp only
  refine (runRequest_of_executes _ he).trans ?_
  rw [attachSetOwn_eq]
  rfl

end Sys2Proof.Machine
end

section
/-! The engines' requests, plant time and the address (O19 to O23). -/

namespace Sys2Proof.Machine

theorem noBody_eq (r : Request) (own : State → State) (s : State) :
    noBody r own s = if r.head.bodyLen ≠ 0 then replied r .badRequest .empty s else own s := rfl

/-! ## The tally and the counters (R64, R96) -/

theorem counterSnapshotOwn_eq (r : Request) (s : State) : counterSnapshotOwn r s =
    if s.mgmt.settings.mode = .auto then replied r .badRequest .empty s
    else replied r .ok (.transferTime (some s.clocks.plantTime)) (intervalTransfer s) := by
  unfold counterSnapshotOwn
  cases s.mgmt.settings.mode <;> rfl

/-- Settles O19: the two scopes of TALLY_CLEAR, and COUNTER_SNAPSHOT by the mode. -/
theorem tallyClearAndCounterSnapshot : Obligations.TallyClearAndCounterSnapshot := by
  refine ⟨fun h s he => ?_, fun h s he => ?_, fun h s he => ?_⟩
  case refine_1 | refine_2 => exact runRequest_of_executes _ he
  case refine_3 =>
    refine (runRequest_of_executes _ he).trans ?_
    rw [noBody_eq, counterSnapshotOwn_eq]
    rfl

/-! ## The tree's words (R14) -/

theorem isHead_eq_true_iff (t : Table Element) (e : Nat) : isHead t e = true ↔ e = 0 ∨ legOf t e ≠ 0 := by
  simp [isHead, carriesLeg]

theorem isHead_eq_false_iff (t : Table Element) (e : Nat) : (!isHead t e) = true ↔ ¬ (e = 0 ∨ legOf t e ≠ 0) := by
  rw [← isHead_eq_true_iff, Bool.not_eq_true', Bool.not_eq_true]

theorem length_chainFrom_le (t : Table Element) (n e : Nat) : (chainFrom t n e).length ≤ n := by
  induction n generalizing e with
  | zero => exact Nat.le_refl _
  | succ n ih =>
    unfold chainFrom
    cases (tableGet t e).bind (·.parent) with
    | none => simp
    | some p => exact Nat.succ_le_succ (ih p)

/-- After an element of a chain stands its parent, as far as the chain reaches. -/
theorem getElem?_chainFrom_succ (t : Table Element) (n e : Nat) {i x : Nat} (hi : i + 1 < n) (hx : (chainFrom t n e)[i]? = some x) :
    (chainFrom t n e)[i + 1]? = (tableGet t x).bind (·.parent) := by
  induction n generalizing e i with
  | zero => omega
  | succ n ih =>
    unfold chainFrom at hx ⊢
    cases i with
    | zero =>
      obtain rfl : e = x := by simpa using hx
      obtain ⟨m, rfl⟩ : ∃ m, n = m + 1 := ⟨n - 1, by omega⟩
      cases (tableGet t e).bind (·.parent) <;> simp [chainFrom]
    | succ i =>
      cases hp : (tableGet t e).bind (·.parent) with
      | none => simp [hp] at hx
      | some p =>
        simp only [hp, List.getElem?_cons_succ] at hx ⊢
        exact ih p (by omega) hx

/-- The first section head of a list of elements. -/
theorem find?_isHead_eq_some_iff (t : Table Element) (l : List Nat) (h : Nat) : l.find? (isHead t) = some h ↔
    ∃ below above, l = below ++ h :: above ∧ (h = 0 ∨ legOf t h ≠ 0) ∧ ∀ x ∈ below, ¬ (x = 0 ∨ legOf t x ≠ 0) := by
  rw [List.find?_eq_some_iff_append]
  simp only [isHead_eq_true_iff, isHead_eq_false_iff]
  grind

theorem mem_childLegs_iff (t : Table Element) (e h : Nat) : e ∈ childLegs t h ↔ e ∈ t.map (·.1) ∧ legOf t e ≠ 0
    ∧ ∃ below above, (pathOf t e).tail = below ++ h :: above ∧ (h = 0 ∨ legOf t h ≠ 0)
        ∧ ∀ x ∈ below, ¬ (x = 0 ∨ legOf t x ≠ 0) := by
  rw [← find?_isHead_eq_some_iff, childLegs, List.mem_filter, Bool.and_eq_true, beq_iff_eq, carriesLeg, bne_iff_ne]
  exact Iff.rfl

theorem childLegs_pairwise {t : Table Element} (ht : tableOk 512 t = true) (h : Nat) : (childLegs t h).Pairwise (· < ·) :=
  (List.pairwise_map.mpr ((tableOk_iff 512 t).mp ht).1).filter _

/-! ## SEARCH_START (R124, R125) -/

theorem bandDeclared_eq_false_iff (s : State) (n : Nat) : (!bandDeclared s n) = true ↔
    (s.bands.bands[n]?).map (fun x => x.live.state) ≠ some .declared := by
  rw [Bool.not_eq_true', ← Bool.not_eq_true, bandDeclared_iff, ne_eq, Option.map_eq_some_iff]

theorem searchRefusal_eq (w : RawSearch) (s : State) : searchRefusal w s =
    if 31 < w.band then some .badIndex
    else if w.level = 0 ∨ 3 < w.level ∨ w.k = 0 ∨ 16 < w.k ∨ 8 < w.sk ∨ w.hold = 0 ∨ 60 < w.hold then some .badValue
    else if s.map.state ≠ .ready then some .mapState
    else if s.search.record ≠ none then some .searchActive
    else if (s.bands.bands[w.band]?).map (fun x => x.live.state) ≠ some .declared then some .noBand
    else if ∃ p ∈ s.tlm.entries, p.2.state ≠ .pass then some .legBusy
    else if childLegs s.map.elements 0 = [] then some .noLegs
    else if 60 * (w.level : Int) - s.mgmt.settings.mFull ≤ s.mgmt.settings.mLow then some .badValue
    else none := by
  have hband : (!within 0 31 w.band) = true ↔ 31 < w.band := by simp [within]
  have hvalues : (!(within 1 3 w.level && within 1 16 w.k && within 0 8 w.sk && within 1 60 w.hold)) = true ↔
      w.level = 0 ∨ 3 < w.level ∨ w.k = 0 ∨ 16 < w.k ∨ 8 < w.sk ∨ w.hold = 0 ∨ 60 < w.hold := by
    simp [within]
    omega
  unfold searchRefusal
  simp only [hband, hvalues, bandDeclared_eq_false_iff, allPass_eq_false_iff, Option.isSome_iff_ne_none]
  rfl

theorem unreachable_eq_false_iff (entries : Table TrackEntry) (a : Nat) :
    unreachable entries a = false ↔ ∀ e, tableGet entries a = some e → e.reachable = true := by
  unfold unreachable
  cases tableGet entries a <;> simp

theorem takeUp_of_reachable {t : Table Element} {entries : Table TrackEntry} {n : Nat} {x : SearchRecord} {l : Leg}
    (hl : x.legs[x.current]? = some l) (hreach : unreachable entries l.address = false) :
    takeUp t entries (n + 1) x = .running (beginBaseline x) := by
  simp [takeUp, currentLeg, hl, hreach]

theorem takeUp_of_unreachable {t : Table Element} {entries : Table TrackEntry} {n : Nat} {x : SearchRecord} {l : Leg}
    (hl : x.legs[x.current]? = some l) (hreach : unreachable entries l.address = true) : takeUp t entries (n + 1) x =
      takeUp t entries n
        { x with
          current := x.current + 1
          legs := x.legs.set x.current { l with cls := some .unknown, drop := none }
          unknowns := if x.unknowns.length < 4 then x.unknowns ++ [l.element] else x.unknowns } := by
  simp [takeUp, currentLeg, hl, hreach, classifyUnknown, setLeg]

/-- Settles O20: the refusals in their order, the first leg taken up, and the words of the tree. -/
theorem searchStart : Obligations.SearchStart := by
  refine ⟨fun h w s he => ?_, fun t => ⟨fun e => rfl, fun e => ⟨?_, length_chainFrom_le t 32 e, fun i x hi hx => ?_⟩,
    fun e h => find?_isHead_eq_some_iff t (pathOf t e) h, mem_childLegs_iff t, childLegs_pairwise, fun h => rfl⟩⟩
  · intro r refusal
    have hown : exec (.searchStart h (some w)) s = .next (searchStartOwn r w s) := runRequest_withBody_of_executes _ w he
    have hrefusal : searchRefusal w s = refusal := searchRefusal_eq w s
    have haccepted (hnone : refusal = none) : exec (.searchStart h (some w)) s =
        .next (startSearch w (answer r .ok (.searchNumber s.search.nextNumber) s)) := by
      rw [hown, searchStartOwn, hrefusal, hnone]
    refine ⟨fun code hcode => ?_, fun l legs hnone hlegs hreach => ?_, haccepted, fun t entries n x l e hl he hreach => ?_⟩
    · rw [hown, searchStartOwn, hrefusal, hcode]
      rfl
    · have hcurrent : (newSearch w s).legs[(newSearch w s).current]? = some l := congrArg (·[0]?) hlegs
      rw [haccepted hnone, ← hlegs]
      exact congrArg (fun p => Host.Outcome.next (settle p _))
        (takeUp_of_reachable hcurrent ((unreachable_eq_false_iff _ _).mpr hreach))
    · exact takeUp_of_unreachable hl (by simp [unreachable, he, hreach])
  · cases hp : (tableGet t e).bind (·.parent) <;> simp [pathOf, chainFrom]
  · exact getElem?_chainFrom_succ t 32 e (by omega) hx

/-! ## An end cause fixed (R137, R138) -/

section
variable {cause : SearchOutcome} {x : SearchRecord} {s : State} (hx : s.search.record = some x)
include hx

theorem fixCause_of_ending (hst : x.state = .ending) : fixCause cause s = s := by
  simp only [fixCause, hx, hst]

theorem fixCause_of_baseline (hst : x.state = .baseline) : fixCause cause s = endSearch x cause x.head s := by
  simp only [fixCause, hx, hst]

theorem fixCause_of_step_posted (hst : x.state = .stepping) (hposted : s.tlm.searchRequest ≠ none) :
    fixCause cause s = endSearch x cause x.head { s with tlm := { s.tlm with searchRequest := none } } := by
  simp only [fixCause, hx, hst, Option.isSome_iff_ne_none.mpr hposted, if_true]
  rfl

theorem fixCause_of_waiting
    (hst : (x.state = .stepping ∧ s.tlm.searchRequest = none) ∨ x.state = .releasing ∨ x.state = .releaseWait) :
    fixCause cause s = { s with search := { s.search with record := some { x with state := .ending, cause := some cause } } } := by
  obtain ⟨hst, hposted⟩ | hst | hst := hst
  · simp [fixCause, hx, hst, hposted, setSearch]
  · simp only [fixCause, hx, hst]
    rfl
  · simp only [fixCause, hx, hst]
    rfl

theorem fixCause_of_stepped {l : Leg} (hst : x.state = .settle ∨ x.state = .measure) (hl : x.legs[x.current]? = some l) :
    fixCause cause s =
      { s with
        search := { s.search with
          record := some
            { x with
              state := .ending, measureDeadline := none, cause := some cause
              peakSum := if x.state = .measure then 0 else x.peakSum
              collected := if x.state = .measure then 0 else x.collected } }
        tlm := { s.tlm with searchRequest := some { address := l.address, command := .release } } } := by
  obtain hst | hst := hst
  · simp [fixCause, hx, hst, postRelease, post, setSearch, currentAddress, currentLeg, hl]
  · simp [fixCause, hx, hst, postRelease, post, setSearch, currentAddress, currentLeg, hl, discardMeasure]

end

/-! ## SEARCH_ABORT (R139) -/

theorem searchAbortOwn_of_record {r : Request} {s : State} {x : SearchRecord} (hx : s.search.record = some x) :
    searchAbortOwn r s = fixCause .aborted
      (replied r .ok (.searchAborted x.number (if x.state = .ending then x.cause else none)) s) := by
  simp only [searchAbortOwn, hx]
  rfl

/-- Settles O21: by the state the search is in. -/
theorem searchAbort : Obligations.SearchAbort := by
  intro h s he hbody
  have hown : exec (.searchAbort h) s = .next (searchAbortOwn ⟨h, .searchAbort⟩ s) := runRequest_noBody_of_executes _ he hbody
  refine ⟨fun hnone => ?_, fun x hx hending => ?_, fun x hx hrunning => ?_⟩
  · rw [hown, searchAbortOwn, hnone]
    rfl
  · rw [hown, searchAbortOwn_of_record hx, if_pos hending]
    exact congrArg _ (fixCause_of_ending (by exact hx) hending)
  · intro t
    have hrecord : t.search.record = some x := hx
    have hcause : exec (.searchAbort h) s = .next (fixCause .aborted t) := by
      rw [hown, searchAbortOwn_of_record hx, if_neg hrunning]
    rw [hcause]
    exact ⟨fun hst => congrArg _ (fixCause_of_baseline hrecord hst),
      fun hst hposted => congrArg _ (fixCause_of_step_posted hrecord hst hposted),
      fun hst => congrArg _ (fixCause_of_waiting hrecord hst),
      fun l hst hl => congrArg _ (fixCause_of_stepped hrecord hst hl)⟩

/-! ## Direct commands (R114 to R117) -/

theorem not_within_address (a : Nat) : (!within 1 254 a) = true ↔ a = 0 ∨ 254 < a := by simp [within]

/-- A direct command's own rule: the refusal its conditions give, or its placing in the direct queue. -/
def refusedOr (r : Request) (s placed : State) : Option Completion → State
  | some code => refuse r code s
  | none => placed

theorem directStepOwn_refusedOr (r : Request) (w : RawStep) (s : State) : directStepOwn r w s =
    refusedOr r s (placeDirect w.address (.step w.level w.hold) r.head.tag s) (directStepRefusal w s) := rfl

theorem directReleaseOwn_refusedOr (r : Request) (a : Nat) (s : State) : directReleaseOwn r a s =
    refusedOr r s (placeDirect a .release r.head.tag s) (directReleaseRefusal a s) := rfl

theorem directQueryOwn_refusedOr (r : Request) (a : Nat) (s : State) : directQueryOwn r a s =
    refusedOr r s (placeDirect a .query r.head.tag s) (directQueryRefusal a s) := rfl

theorem directStepOwn_eq (r : Request) (w : RawStep) (s : State) : directStepOwn r w s =
    if w.address = 0 ∨ 254 < w.address ∨ w.level = 0 ∨ 3 < w.level ∨ w.hold = 0 ∨ 60 < w.hold then replied r .badValue .empty s
    else if tableGet s.tlm.entries w.address = none then replied r .notFound .empty s
    else if searchHolds s w.address = true then replied r .legBusy .empty s
    else if s.search.record ≠ none then replied r .searchActive .empty s
    else if ∃ p ∈ s.tlm.entries, p.2.state ≠ .pass then replied r .legBusy .empty s
    else placeDirect w.address (.step w.level w.hold) r.head.tag s := by
  have hvalues : (!(within 1 254 w.address && within 1 3 w.level && within 1 60 w.hold)) = true ↔
      w.address = 0 ∨ 254 < w.address ∨ w.level = 0 ∨ 3 < w.level ∨ w.hold = 0 ∨ 60 < w.hold := by
    simp [within]
    omega
  rw [directStepOwn_refusedOr, directStepRefusal]
  simp only [hvalues, allPass_eq_false_iff, Option.isSome_iff_ne_none, Option.isNone_iff_eq_none, apply_ite (refusedOr r s _)]
  rfl

theorem directReleaseOwn_eq (r : Request) (a : Nat) (s : State) : directReleaseOwn r a s =
    if a = 0 ∨ 254 < a then replied r .badValue .empty s
    else if tableGet s.tlm.entries a = none then replied r .notFound .empty s
    else if searchHolds s a = true then replied r .legBusy .empty s
    else placeDirect a .release r.head.tag s := by
  rw [directReleaseOwn_refusedOr, directReleaseRefusal]
  simp only [not_within_address, Option.isNone_iff_eq_none, apply_ite (refusedOr r s _)]
  rfl

theorem directQueryOwn_eq (r : Request) (a : Nat) (s : State) : directQueryOwn r a s =
    if a = 0 ∨ 254 < a then replied r .badValue .empty s
    else if tableGet s.tlm.entries a = none then replied r .notFound .empty s
    else placeDirect a .query r.head.tag s := by
  rw [directQueryOwn_refusedOr, directQueryRefusal]
  simp only [not_within_address, Option.isNone_iff_eq_none, apply_ite (refusedOr r s _)]
  rfl

theorem posts_iff (t : Telemetry) (a : Nat) : t.searchRequest.any (fun q => q.address == a) = true ↔
    ∃ c, t.searchRequest = some { address := a, command := c } := by
  simp only [Option.any_eq_true, beq_iff_eq]
  constructor
  · rintro ⟨⟨_, c⟩, hq, rfl⟩
    exact ⟨c, hq⟩
  · rintro ⟨c, hq⟩
    exact ⟨_, hq, rfl⟩

theorem searchHolds_iff (s : State) (a : Nat) : searchHolds s a = true ↔
    (∃ c, s.tlm.searchRequest = some { address := a, command := c })
      ∨ (∃ x, s.tlm.transaction = some x ∧ x.requester = .search ∧ x.address = a)
      ∨ (s.search.record ≠ none ∧ ∃ e, tableGet s.tlm.entries a = some e ∧ e.state ≠ .pass ∧ e.owner = some .search) := by
  rw [searchHolds, Bool.or_eq_true, Bool.or_eq_true, posts_iff, or_assoc]
  simp [Option.any_eq_true, Option.isSome_iff_ne_none, TrackEntry.busy]

/-- Settles O22: the conditions in their order, then the command in the direct queue. -/
theorem directCommands : Obligations.DirectCommands := by
  refine ⟨fun h w s he => ?_, fun h a s he => ?_, fun h a s he => ?_, searchHolds_iff⟩
  · refine (runRequest_withBody_of_executes _ w he).trans ?_
    rw [directStepOwn_eq]
    rfl
  · refine (runRequest_withBody_of_executes _ a he).trans ?_
    rw [directReleaseOwn_eq]
    rfl
  · refine (runRequest_withBody_of_executes _ a he).trans ?_
    rw [directQueryOwn_eq]
    rfl

/-! ## Plant time and the address (R171, R173) -/

theorem addressSetOwn_eq (r : Request) (a : Nat) (s : State) : addressSetOwn r a s =
    if a = 0 ∨ 254 < a then replied r .badValue .empty s
    else replied r .ok (.addresses s.mgmt.nodeAddress (BitVec.ofNat 8 a)) (setAddress (BitVec.ofNat 8 a) s) := by
  simp only [← not_within_address, Bool.not_eq_true', ← Bool.not_eq_true, ite_not]
  rfl

/-- Settles O23: the tick, the time put in, and the address overridden. -/
theorem plantTimeAndAddress : Obligations.PlantTimeAndAddress := by
  refine ⟨fun s hquiet => inTurn_of_quiet _ hquiet, fun h w s he => runRequest_withBody_of_executes _ w he, fun h a s he => ?_⟩
  refine (runRequest_withBody_of_executes _ a he).trans ?_
  rw [addressSetOwn_eq]
  rfl

end Sys2Proof.Machine
end

section
/-! The two reset requests and the save (O25 to O27). -/

namespace Sys2Proof.Machine

/-! ## RESET_ENGINES (R177) -/

theorem nowSlots_eq (slots : List ReportSlot) (i : Nat) : nowSlots i slots = (List.range slots.length).filterMap (fun k =>
    if (slots[k]?).map (fun x => (x.entry.enabled, x.entry.trigger)) = some (true, .now) then
      some { slot := i + k, cause := .now, count := 1 } else none) := by
  induction slots generalizing i with
  | nil => rfl
  | cons x rest ih =>
    rw [List.length_cons, List.range_succ_eq_map, List.filterMap_cons, List.filterMap_map, nowSlots, ih (i + 1)]
    by_cases hnow : x.entry.enabled = true ∧ x.entry.trigger = .now
    · simp [hnow, Nat.add_assoc, Nat.add_comm 1, Function.comp_def]
    · simp [hnow, Nat.add_assoc, Nat.add_comm 1, Function.comp_def]

theorem resetEnginesReports_eq (now : Nat) (r : Reports) : resetEnginesReports now r =
    { r with
      slots := r.slots.map (fun x =>
        { entry := x.entry
          due := if x.entry.enabled = true ∧ x.entry.trigger = .periodic then
              x.entry.period.map (fun p => now + p * 1000) else none })
      queue := (List.range r.slots.length).filterMap (fun i =>
        if (r.slots[i]?).map (fun x => (x.entry.enabled, x.entry.trigger)) = some (true, .now) then
          some { slot := i, cause := .now, count := 1 } else none) } := by
  rw [resetEnginesReports, nowSlots_eq]
  simp only [periodStart_eq, Nat.zero_add]

theorem dropRetained_idle {t : Telemetry} (h : t.transaction = none) : dropRetained t =
    { t with entries := t.entries.filter (fun p => !(p.2.retained && p.2.state == .pass)) } := by
  unfold dropRetained
  simp [h, TrackEntry.busy, bne]

theorem entryAtReset_eq (e : TrackEntry) : entryAtReset e =
    { e with state := if e.state = .pass then .pass else .unconfirmed, reachable := true, timeouts := 0, failures := 0,
             lastReply := none } := by
  by_cases hpass : e.state = .pass <;> simp [entryAtReset, TrackEntry.busy, hpass]

theorem resetEnginesTelemetry_eq (t : Telemetry) : resetEnginesTelemetry t =
    { entries := (t.entries.map (fun p => (p.1,
        { p.2 with state := if p.2.state = .pass then .pass else .unconfirmed, reachable := true, timeouts := 0,
                   failures := 0, lastReply := none }))).filter (fun p => !(p.2.retained && p.2.state == .pass))
      transaction := none, searchRequest := none, directQueue := [], assembling := [], line := t.line, sent := 0
      timeout := 0, ignored := 0 } := by
  rw [resetEnginesTelemetry, dropRetained_idle rfl, tableMap]
  simp only [entryAtReset_eq]

theorem resetEnginesBands_eq (now : Nat) (n : Settings) (w : BandWatch) : resetEnginesBands now n w =
    { bands := w.bands.map (fun x => { x with live := resetLive })
      lastTransfer := none
      intervalDue := if n.mode = .auto then some (now + n.interval * 1000) else none } := by
  rw [resetEnginesBands, intervalStart_eq]

/-- Settles O26: block by block, the state RESET_ENGINES leaves. -/
theorem resetEngines : Obligations.ResetEngines := by
  intro h s he hbody
  refine (runRequest_noBody_of_executes _ he hbody).trans ?_
  rw [resetEnginesOwn, resetEnginesState, resetEnginesTelemetry_eq, resetEnginesBands_eq, resetEnginesReports_eq]
  rfl

/-! ## RESET_ALL (R178) -/

/-- The tracking table after RESET_ALL: an entry out of PASS alone stays, retained UNCONFIRMED (R119, R120). -/
theorem entries_resetAll (entries : Table TrackEntry) :
    ((((entries.map (fun p => (p.1, entryAtReset p.2))).filter (fun p => !(p.2.retained && p.2.state == .pass))).filter
      (fun p => ([] : List Nat).contains p.1 || p.2.busy)).map (fun p => (p.1, { p.2 with retained := !([] : List Nat).contains p.1 })))
    = (entries.filter (fun p => p.2.state != .pass)).map (fun p => (p.1,
        { p.2 with state := .unconfirmed, reachable := true, timeouts := 0, failures := 0, lastReply := none, retained := true })) := by
  induction entries with
  | nil => rfl
  | cons p rest ih =>
    by_cases hpass : p.2.state = .pass
    · cases hret : p.2.retained <;> simpa [entryAtReset, TrackEntry.busy, hpass, hret] using ih
    · simpa [entryAtReset, TrackEntry.busy, hpass] using ih

theorem rebuild_nil_resetEnginesTelemetry (t : Telemetry) : rebuild [] (resetEnginesTelemetry t) =
    { entries := (t.entries.filter (fun p => p.2.state != .pass)).map (fun p => (p.1,
        { p.2 with state := .unconfirmed, reachable := true, timeouts := 0, failures := 0, lastReply := none,
                   retained := true }))
      transaction := none, searchRequest := none, directQueue := [], assembling := [], line := t.line, sent := 0
      timeout := 0, ignored := 0 } := by
  rw [resetEnginesTelemetry, dropRetained_idle rfl, rebuild, tableMap, ← entries_resetAll]
  rfl

/-- Settles O27: block by block, the state RESET_ALL leaves at its beginning. -/
theorem resetAll : Obligations.ResetAll := by
  intro h s he hbody
  refine (runRequest_noBody_of_executes _ he hbody).trans ?_
  rw [resetAllOwn, resetAllState, resetEnginesState, rebuild_nil_resetEnginesTelemetry]
  rfl

/-! ## IMAGE_SAVE (R195) -/

theorem savingFormat_ne_one : savingFormat ≠ 1 := by
  unfold savingFormat
  split
  · decide
  · next h => exact h

theorem mem_imageRecords_iff (s : State) (x : ImageRecord) : x ∈ imageRecords s ↔
    x = .settings (rawSettings s.mgmt.settings)
      ∨ (∃ i c, s.echo.channels[i]? = some c ∧ x = .channel (rawChannel i c))
      ∨ (∃ i y, s.bands.bands[i]? = some y ∧ x = .band (rawBand i y.entry))
      ∨ (∃ i c, s.sweep.corrections[i]? = some c ∧ x = .correction i c)
      ∨ (∃ i y, s.reports.slots[i]? = some y ∧ x = .slot (rawSlot i y.entry))
      ∨ (∃ i e, s.reports.alarms[i]? = some e ∧ x = .alarm (rawAlarm i e))
      ∨ (∃ p ∈ s.map.elements, x = .element (rawElement p.1 p.2))
      ∨ ∃ p ∈ s.map.attachments, x = .attachment p.1 (rawAttach p.2) := by
  simp only [imageRecords, List.mem_append, mem_numbered, List.mem_singleton, List.mem_map, Nat.add_zero, or_assoc, eq_comm (a := x)]

/-- Settles O25: the refusals, the save begun and completed, and the records it writes. -/
theorem imageSave : Obligations.ImageSave := by
  refine ⟨fun h s he => ⟨fun hbody => ?_, fun hbody hedit => ?_, fun hbody hedit => ?_⟩, fun l r rest s hquiet hl hr => ?_,
    mem_imageRecords_iff⟩
  · refine (runRequest_of_executes _ he).trans ?_
    rw [noBody_eq, if_pos hbody]
  · refine (runRequest_noBody_of_executes _ he hbody).trans ?_
    rw [imageSaveOwn, if_pos hedit]
    rfl
  · refine ⟨{ s.image.flash with format := savingFormat }, savingFormat_ne_one,
      (runRequest_noBody_of_executes _ he hbody).trans ?_⟩
    rw [imageSaveOwn, if_neg hedit]
    rfl
  · refine (inTurn_of_quiet _ hquiet).trans ?_
    have hhead : (endSave l s).mgmt.requests = r :: rest := hr
    rw [completeSave, hl]
    exact congrArg Host.Outcome.next (answerHead_cons _ _ hhead)

end Sys2Proof.Machine
end

section
/-! A good image in words, and what the steps of a load make of the tables (R192, R193). -/

namespace Sys2Proof.Machine

/-! ## A good image (R192) -/

/-- The numbers of the records of one kind, in the order of the image. -/
def numbersOf (k : Nat) (l : List ImageRecord) : List Nat :=
  (l.map recordKey).filterMap (fun p => if p.1 = k then some p.2 else none)

theorem recordKey_lt (x : ImageRecord) : (recordKey x).1 < 8 := by cases x <;> simp [recordKey]

/-- A list of pairs has no pair twice when for each first component it has no second component twice. -/
theorem nodup_pairs_iff {bound : Nat} {ks : List (Nat × Nat)} (h : ∀ p ∈ ks, p.1 < bound) :
    ks.Nodup ↔ ∀ k < bound, (ks.filterMap (fun p => if p.1 = k then some p.2 else none)).Nodup := by
  induction ks with
  | nil => simp
  | cons p rest ih =>
    obtain ⟨j, n⟩ := p
    have hj : j < bound := h _ List.mem_cons_self
    have hmem (k : Nat) : n ∈ rest.filterMap (fun p => if p.1 = k then some p.2 else none) ↔ (k, n) ∈ rest := by
      simp
    rw [List.nodup_cons, ih fun q hq => h q (List.mem_cons_of_mem _ hq)]
    constructor
    · rintro ⟨hnew, hrest⟩ k hk
      by_cases hjk : j = k
      · subst hjk
        rw [List.filterMap_cons, if_pos rfl]
        exact List.nodup_cons.mpr ⟨mt (hmem j).mp hnew, hrest j hk⟩
      · simpa [List.filterMap_cons, hjk] using hrest k hk
    · intro hall
      refine ⟨fun hp => ?_, fun k hk => (hall k hk).sublist ?_⟩
      · have hdup := hall j hj
        rw [List.filterMap_cons, if_pos rfl] at hdup
        exact (List.nodup_cons.mp hdup).1 ((hmem j).mpr hp)
      · exact (List.sublist_cons_self _ _).filterMap _

theorem nodup_recordKeys_iff (l : List ImageRecord) : (l.map recordKey).Nodup ↔ ∀ k < 8, (numbersOf k l).Nodup := by
  refine nodup_pairs_iff fun p hp => ?_
  obtain ⟨x, -, rfl⟩ := List.mem_map.mp hp
  exact recordKey_lt x

/-- The numbers of a kind read off the list of its records. -/
theorem numbersOf_eq {α : Type} {k : Nat} {g : ImageRecord → Option α} {h : α → Nat}
    (hg : ∀ x, (g x).map h = if (recordKey x).1 = k then some (recordKey x).2 else none) (l : List ImageRecord) :
    numbersOf k l = (l.filterMap g).map h := by
  rw [numbersOf, List.filterMap_map, List.map_filterMap]
  exact congrArg (l.filterMap ·) (funext fun x => (hg x).symm)

theorem numbersOf_settings (l : List ImageRecord) : numbersOf 0 l = (imageSettings l).map (fun _ => 0) :=
  numbersOf_eq (fun x => by cases x <;> rfl) l

theorem numbersOf_channels (l : List ImageRecord) : numbersOf 1 l = (imageChannels l).map (·.channel) :=
  numbersOf_eq (fun x => by cases x <;> rfl) l

theorem numbersOf_bands (l : List ImageRecord) : numbersOf 2 l = (imageBands l).map (·.band) :=
  numbersOf_eq (fun x => by cases x <;> rfl) l

theorem numbersOf_corrections (l : List ImageRecord) : numbersOf 3 l = (imageCorrections l).map (·.1) :=
  numbersOf_eq (fun x => by cases x <;> rfl) l

theorem numbersOf_slots (l : List ImageRecord) : numbersOf 4 l = (imageSlots l).map (·.slot) :=
  numbersOf_eq (fun x => by cases x <;> rfl) l

theorem numbersOf_alarms (l : List ImageRecord) : numbersOf 5 l = (imageAlarms l).map (·.line) :=
  numbersOf_eq (fun x => by cases x <;> rfl) l

theorem numbersOf_elements (l : List ImageRecord) : numbersOf 6 l = (imageElements l).map (·.number) :=
  numbersOf_eq (fun x => by cases x <;> rfl) l

theorem numbersOf_attachments (l : List ImageRecord) : numbersOf 7 l = (imageAttachments l).map (·.1) :=
  numbersOf_eq (fun x => by cases x <;> rfl) l

/-- The station id an attachment record carries. -/
def recordStation : ImageRecord → Option Word32
  | .attachment _ w => some w.station
  | _ => none

theorem filterMap_recordStation (l : List ImageRecord) : l.filterMap recordStation = (imageAttachments l).map (·.2.station) := by
  rw [imageAttachments, List.map_filterMap]
  exact congrArg (l.filterMap ·) (funext fun x => by cases x <;> rfl)

theorem length_imageSettings_eq_one_iff (l : List ImageRecord) :
    (imageSettings l).length = 1 ↔ (∃ w, ImageRecord.settings w ∈ l) ∧ (numbersOf 0 l).Nodup := by
  have hsome : (∃ w, ImageRecord.settings w ∈ l) ↔ 0 < (imageSettings l).length := by
    simp only [← mem_imageSettings, List.length_pos_iff_exists_mem]
  rw [hsome, numbersOf_settings, List.map_const', List.nodup_replicate]
  omega

theorem countsOk_iff (l : List ImageRecord) : countsOk l = true ↔
    (∃ w, ImageRecord.settings w ∈ l) ∧ (l.map recordKey).Nodup ∧ (l.filterMap recordStation).Nodup := by
  rw [nodup_recordKeys_iff, filterMap_recordStation]
  simp only [countsOk, Bool.and_eq_true, decide_eq_true_eq, distinct_eq_true_iff, length_imageSettings_eq_one_iff,
    ← numbersOf_channels, ← numbersOf_bands, ← numbersOf_corrections, ← numbersOf_slots, ← numbersOf_alarms,
    ← numbersOf_elements, ← numbersOf_attachments]
  constructor
  · rintro ⟨⟨⟨⟨⟨⟨⟨⟨⟨hsome, h0⟩, h1⟩, h2⟩, h3⟩, h4⟩, h5⟩, h6⟩, h7⟩, hstations⟩
    refine ⟨hsome, fun k hk => ?_, hstations⟩
    match k, hk with
    | 0, _ => exact h0
    | 1, _ => exact h1
    | 2, _ => exact h2
    | 3, _ => exact h3
    | 4, _ => exact h4
    | 5, _ => exact h5
    | 6, _ => exact h6
    | 7, _ => exact h7
    | k + 8, hk => omega
  · rintro ⟨hsome, hall, hstations⟩
    have hkind (k : Nat) (hk : k < 8 := by decide) := hall k hk
    exact ⟨⟨⟨⟨⟨⟨⟨⟨⟨hsome, hkind 0⟩, hkind 1⟩, hkind 2⟩, hkind 3⟩, hkind 4⟩, hkind 5⟩, hkind 6⟩, hkind 7⟩, hstations⟩

theorem recordOk_iff (x : ImageRecord) : recordOk x = true ↔ recordPasses x := by
  cases x with
  | settings w => simp [recordOk, recordPasses]
  | channel w => simp [recordOk, recordPasses, within_zero_eq_true_iff, Option.isSome_iff_exists]
  | band w => simp [recordOk, recordPasses, within_zero_eq_true_iff, Option.isSome_iff_exists]
  | correction n c => simp [recordOk, recordPasses, within_zero_eq_true_iff, correctionOk_iff]
  | slot w => simp [recordOk, recordPasses, within_zero_eq_true_iff, Option.isSome_iff_exists, and_assoc]
  | alarm w => simp [recordOk, recordPasses, within_zero_eq_true_iff, Option.isSome_iff_exists]
  | element w => simp [recordOk, recordPasses]
  | attachment i w => simp [recordOk, recordPasses, attachImageOk, within_eq_true_iff, and_assoc]

theorem imageGood_iff (f : Flash) : imageGood f = true ↔
    f.format = 1 ∧ (Config.recordBytes f.records).length = f.length ∧ checkValue (Config.recordBytes f.records) = f.crc
      ∧ (∃ w, ImageRecord.settings w ∈ f.records) ∧ (f.records.map recordKey).Nodup
      ∧ (f.records.filterMap recordStation).Nodup ∧ ∀ x ∈ f.records, recordPasses x := by
  simp only [imageGood, Bool.and_eq_true, decide_eq_true_eq, List.all_eq_true, countsOk_iff, recordOk_iff, and_assoc]

/-- A good image's records of a kind have different numbers. -/
theorem nodup_numbersOf {f : Flash} (h : imageGood f = true) (k : Nat) (hk : k < 8) : (numbersOf k f.records).Nodup := by
  obtain ⟨-, -, -, -, hkeys, -⟩ := (imageGood_iff f).mp h
  exact (nodup_recordKeys_iff f.records).mp hkeys k hk

/-! ## Records put in a list by number -/

/-- A list with the entry of each record that makes one put at the record's number, one record after another. -/
def putAll {W V A : Type} (parse : W → Option V) (number : W → Nat) (entry : V → A) (ws : List W) (l : List A) : List A :=
  ws.foldl (fun l w => (parse w).elim l (fun v => l.set (number w) (entry v))) l

section
variable {W V A : Type} {parse : W → Option V} {number : W → Nat} {entry : V → A}

theorem putAll_cons (w : W) (rest : List W) (l : List A) : putAll parse number entry (w :: rest) l =
    putAll parse number entry rest ((parse w).elim l (fun v => l.set (number w) (entry v))) := rfl

theorem length_elim_set (o : Option V) (n : Nat) (l : List A) : (o.elim l (fun v => l.set n (entry v))).length = l.length := by
  cases o <;> simp

theorem getElem?_putAll_of_ne {ws : List W} {i : Nat} (h : ∀ w ∈ ws, number w ≠ i) (l : List A) :
    (putAll parse number entry ws l)[i]? = l[i]? := by
  induction ws generalizing l with
  | nil => rfl
  | cons w rest ih =>
    rw [putAll_cons, ih fun x hx => h x (List.mem_cons_of_mem _ hx)]
    cases parse w with
    | none => rfl
    | some v => exact List.getElem?_set_ne (h w List.mem_cons_self)

/-- With no number twice, each record's entry stands at its number. -/
theorem getElem?_putAll_of_mem {ws : List W} (hnodup : (ws.map number).Nodup) {w : W} (hw : w ∈ ws) {v : V}
    (hv : parse w = some v) {l : List A} (hlt : number w < l.length) :
    (putAll parse number entry ws l)[number w]? = some (entry v) := by
  induction ws generalizing l with
  | nil => cases hw
  | cons x rest ih =>
    obtain ⟨hnew, hrest⟩ := List.nodup_cons.mp hnodup
    rw [putAll_cons]
    obtain rfl | hw := List.mem_cons.mp hw
    · rw [getElem?_putAll_of_ne fun y hy heq => hnew (List.mem_map.mpr ⟨y, hy, heq⟩), hv]
      exact List.getElem?_set_self hlt
    · exact ih hrest hw (by rwa [length_elim_set])

end

/-- Steps that each change one part of a state by a function of that part. -/
theorem foldl_part {S P W : Type} (get : S → P) (put : P → S → S) (hput : ∀ s, put (get s) s = s) (hget : ∀ p s, get (put p s) = p)
    (hputput : ∀ p q s, put p (put q s) = put p s) {f : S → W → S} {g : P → W → P} (hf : ∀ t w, f t w = put (g (get t) w) t)
    (ws : List W) (s : S) : ws.foldl f s = put (ws.foldl g (get s)) s := by
  induction ws generalizing s with
  | nil => exact (hput s).symm
  | cons w rest ih => rw [List.foldl_cons, List.foldl_cons, ih, hf, hget, hputput]

/-! ## Steps 1 to 3 of a load -/

theorem foldl_setChannel (ws : List RawChannel) (s : State) :
    ws.foldl (fun t r => (channelOf r).elim t (fun c => setChannel r.channel c t)) s =
      { s with echo := { s.echo with channels := putAll channelOf (·.channel) id ws s.echo.channels } } :=
  foldl_part (fun s : State => s.echo.channels) (fun p s => { s with echo := { s.echo with channels := p } })
    (fun _ => rfl) (fun _ _ => rfl) (fun _ _ _ => rfl) (fun t w => by cases channelOf w <;> rfl) ws s

/-- The entry of a band that a load writes: its live state is reset (R83). -/
def freshBand (b : Band) : BandSlot := { entry := b, live := resetLive }

theorem foldl_setBand (ws : List RawBand) (s : State) :
    ws.foldl (fun t r => (bandOf r).elim t (fun b => setBand r.band b t)) s =
      { s with bands := { s.bands with bands := putAll bandOf (·.band) freshBand ws s.bands.bands } } :=
  foldl_part (fun s : State => s.bands.bands) (fun p s => { s with bands := { s.bands with bands := p } })
    (fun _ => rfl) (fun _ _ => rfl) (fun _ _ _ => rfl) (fun t w => by cases bandOf w <;> rfl) ws s

/-- The correction list with one pair replaced by each record. -/
def putCorrections (ws : List (Nat × Correction)) (l : List Correction) : List Correction :=
  ws.foldl (fun l p => replaceRun l p.1 [p.2]) l

theorem foldl_setCorrections (ws : List (Nat × Correction)) (s : State) :
    ws.foldl (fun t p => setCorrections p.1 [p.2] t) s =
      { s with sweep := { s.sweep with corrections := putCorrections ws s.sweep.corrections } } :=
  foldl_part (fun s : State => s.sweep.corrections) (fun p s => { s with sweep := { s.sweep with corrections := p } })
    (f := fun t (p : Nat × Correction) => setCorrections p.1 [p.2] t)
    (g := fun l (p : Nat × Correction) => replaceRun l p.1 [p.2]) (fun _ => rfl) (fun _ _ => rfl) (fun _ _ _ => rfl) (fun _ _ => rfl) ws s

theorem foldl_setAlarm (ws : List RawAlarm) (s : State) :
    ws.foldl (fun t r => (alarmOf r).elim t (fun a => setAlarm r.line a t)) s =
      { s with reports := { s.reports with alarms := putAll alarmOf (·.line) id ws s.reports.alarms } } :=
  foldl_part (fun s : State => s.reports.alarms) (fun p s => { s with reports := { s.reports with alarms := p } })
    (fun _ => rfl) (fun _ _ => rfl) (fun _ _ _ => rfl) (fun t w => by cases alarmOf w <;> rfl) ws s

theorem replaceRun_one {l : List Correction} {n : Nat} (h : n < l.length) (c : Correction) : replaceRun l n [c] = l.set n c := by
  rw [replaceRun, List.set_eq_take_append_cons_drop, if_pos h, List.append_assoc]
  rfl

theorem putCorrections_eq {ws : List (Nat × Correction)} {l : List Correction} (h : ∀ p ∈ ws, p.1 < l.length) :
    putCorrections ws l = putAll (fun p => some p.2) (·.1) id ws l := by
  induction ws generalizing l with
  | nil => rfl
  | cons p rest ih =>
    have hset := replaceRun_one (h p List.mem_cons_self) p.2
    refine (congrArg (putCorrections rest) hset).trans (ih fun q hq => ?_)
    rw [List.length_set]
    exact h q (List.mem_cons_of_mem _ hq)

theorem loadEntries_eq (l : List ImageRecord) (s : State) : loadEntries l s =
    { s with
      echo := { s.echo with channels := putAll channelOf (·.channel) id (imageChannels l) s.echo.channels }
      bands := { s.bands with bands := putAll bandOf (·.band) freshBand (imageBands l) s.bands.bands }
      sweep := { s.sweep with corrections := putCorrections (imageCorrections l) s.sweep.corrections }
      reports := { s.reports with alarms := putAll alarmOf (·.line) id (imageAlarms l) s.reports.alarms } } := by
  simp only [loadEntries, foldl_setChannel, foldl_setBand, foldl_setCorrections, foldl_setAlarm]

/-- The slot records of an image in the order of their writes. -/
def slotsInOrder (l : List ImageRecord) : List RawSlot := sortBy (fun a b => decide (a.slot ≤ b.slot)) (imageSlots l)

theorem mem_slotsInOrder {l : List ImageRecord} {w : RawSlot} : w ∈ slotsInOrder l ↔ ImageRecord.slot w ∈ l :=
  (sortBy_perm _ _).mem_iff.trans mem_imageSlots

/-- The reports block after a slot record is written. -/
def putSlot (now : Nat) (r : Reports) (w : RawSlot) : Reports := (slotOf w).elim r (fun e => writeSlot now w.slot e r)

theorem loadSlots_eq (l : List ImageRecord) (s : State) :
    loadSlots l s = { s with reports := (slotsInOrder l).foldl (putSlot s.clocks.elapsed) s.reports } := by
  have hfold (ws : List RawSlot) : ∀ t : State, ws.foldl (fun t r => (slotOf r).elim t (fun e => setSlot r.slot e t)) t =
      { t with reports := ws.foldl (putSlot t.clocks.elapsed) t.reports } := by
    induction ws with
    | nil => exact fun _ => rfl
    | cons w rest ih =>
      intro t
      rw [List.foldl_cons, List.foldl_cons, putSlot, ih]
      cases slotOf w <;> rfl
  exact hfold _ s

/-- The entry a slot write stores: its period timer started (R184). -/
def freshSlot (now : Nat) (e : SlotEntry) : ReportSlot := { entry := e, due := periodStart now e }

/-- What a slot record queues: an enabled NOW slot (R181). -/
def queuedBy (w : RawSlot) : Option QueuedSlot :=
  (slotOf w).bind (fun e =>
    if e.enabled = true ∧ e.trigger = .now then some { slot := w.slot, cause := .now, count := 1 } else none)

theorem slot_of_queuedBy {w : RawSlot} {q : QueuedSlot} (h : queuedBy w = some q) : q.slot = w.slot := by
  obtain ⟨e, -, he⟩ := Option.bind_eq_some_iff.mp h
  split at he
  · cases he; rfl
  · cases he

theorem putSlot_eq {now : Nat} {w : RawSlot} {e : SlotEntry} (he : slotOf w = some e) (r : Reports) : putSlot now r w =
    { r with
      slots := r.slots.set w.slot (freshSlot now e)
      queue := r.queue.filter (fun q => q.slot != w.slot) ++ (queuedBy w).toList } := by
  rw [putSlot, he, Option.elim_some, writeSlot_eq, ← periodStart_eq, queuedBy, he]
  by_cases hnow : e.enabled = true ∧ e.trigger = .now
  · simp [hnow, freshSlot]
  · simp [hnow, freshSlot]

/-- Slot records written one after another, no slot twice: their slots leave the queue, and the NOW slots follow. -/
theorem foldl_putSlot (now : Nat) {ws : List RawSlot} (hparse : ∀ w ∈ ws, ∃ e, slotOf w = some e)
    (hnodup : (ws.map (·.slot)).Nodup) (r : Reports) : ws.foldl (putSlot now) r =
      { r with
        slots := putAll slotOf (·.slot) (freshSlot now) ws r.slots
        queue := r.queue.filter (fun q => !ws.any (fun w => w.slot == q.slot)) ++ ws.filterMap queuedBy } := by
  induction ws generalizing r with
  | nil =>
    have hall : r.queue.filter (fun _ => true) = r.queue := List.filter_eq_self.mpr fun _ _ => rfl
    simp [putAll, hall]
  | cons w rest ih =>
    obtain ⟨e, he⟩ := hparse w List.mem_cons_self
    obtain ⟨hnew, hrest⟩ := List.nodup_cons.mp hnodup
    have hkept : (queuedBy w).toList.filter (fun q => !rest.any (fun x => x.slot == q.slot)) = (queuedBy w).toList := by
      refine List.filter_eq_self.mpr fun q hq => ?_
      have hslot := slot_of_queuedBy (Option.mem_toList.mp hq)
      simp only [Bool.not_eq_true', List.any_eq_false, beq_iff_eq]
      exact fun x hx heq => hnew (List.mem_map.mpr ⟨x, hx, heq.trans hslot⟩)
    rw [List.foldl_cons, ih (fun x hx => hparse x (List.mem_cons_of_mem _ hx)) hrest, putSlot_eq he]
    simp only [List.filter_append, List.filter_filter, hkept, List.append_assoc, Reports.mk.injEq, and_true]
    refine ⟨by simp [putAll, he], congr (congrArg _ (List.filter_congr fun q _ => ?_)) ?_⟩
    · simp [bne, Bool.and_comm, Bool.beq_comm]
    · cases hq : queuedBy w <;> simp [hq]

end Sys2Proof.Machine
end

section
/-! What the load of a good image makes of the tables (O24). -/

namespace Sys2Proof.Machine

/-! ## The records as their entries -/

theorem rawChannel_of_channelOf {w : RawChannel} {c : Channel} (h : channelOf w = some c) : w = rawChannel w.channel c := by
  obtain ⟨he, hr, ht, -, -⟩ := (channelOf_eq_some_iff w c).mp h
  cases w
  simp_all [rawChannel]

theorem rawBand_of_bandOf {w : RawBand} {b : Band} (h : bandOf w = some b) : w = rawBand w.band b := by
  obtain ⟨h1, h2, h3, h4, h5, h6, h7, h8, h9, h10, -⟩ := (bandOf_eq_some_iff w b).mp h
  cases w
  simp_all [rawBand]

theorem rawAlarm_of_alarmOf {w : RawAlarm} {e : AlarmEntry} (h : alarmOf w = some e) : w = rawAlarm w.line e := by
  obtain ⟨h1, h2, -⟩ := (alarmOf_eq_some_iff w e).mp h
  cases w
  simp_all [rawAlarm]

theorem rawSlot_of_slotOf {w : RawSlot} {e : SlotEntry} (h : slotOf w = some e) : w = rawSlot w.slot e := by
  obtain ⟨h1, h2, h3, h4, h5, h6, h7, -⟩ := (slotOf_eq_some_iff w e).mp h
  cases w
  simp_all [rawSlot]

theorem rawSettings_settingsOf {w : RawSettings} (h : settingsFault w = none) : rawSettings (settingsOf w) = w := by
  obtain ⟨-, -, -, -, -, -, -, -, -, -, hmode, -⟩ := (settingsFault_eq_none_iff w).mp h
  obtain ⟨m, hm⟩ := Option.ne_none_iff_exists'.mp hmode
  cases w
  simp_all [rawSettings, settingsOf]

theorem rawChannel_inj {i : Nat} {c d : Channel} (h : rawChannel i c = rawChannel i d) : c = d := by
  cases c; cases d; simp_all [rawChannel]

theorem rawBand_inj {i : Nat} {b d : Band} (h : rawBand i b = rawBand i d) : b = d := by
  cases b; cases d; simp_all [rawBand]

theorem rawAlarm_inj {i : Nat} {e d : AlarmEntry} (h : rawAlarm i e = rawAlarm i d) : e = d := by
  cases e; cases d; simp_all [rawAlarm]

theorem rawSlot_inj {i : Nat} {e d : SlotEntry} (h : rawSlot i e = rawSlot i d) : e = d := by
  obtain ⟨e1, e2, e3, e4, e5, ev, e7⟩ := e
  obtain ⟨d1, d2, d3, d4, d5, dv, d7⟩ := d
  simp only [rawSlot, RawSlot.mk.injEq, Option.some.injEq, true_and] at h
  obtain ⟨rfl, rfl, rfl, rfl, rfl, hevents, rfl⟩ := h
  cases ev <;> cases dv <;> simp_all

/-- A table whose every record makes an entry, after the records are put in it. -/
theorem putAll_spec {W V A : Type} {parse : W → Option V} {number : W → Nat} {entry : V → A} {raw : Nat → V → W} {ws : List W}
    {l : List A} (hparse : ∀ w ∈ ws, ∃ v, parse w = some v) (hraw : ∀ w v, parse w = some v → w = raw (number w) v)
    (hinj : ∀ i v v', raw i v = raw i v' → v = v') (hnumber : ∀ i v, number (raw i v) = i) (hnodup : (ws.map number).Nodup)
    (hlt : ∀ w ∈ ws, number w < l.length) :
    (∀ i v, raw i v ∈ ws → (putAll parse number entry ws l)[i]? = some (entry v))
      ∧ ∀ i, (∀ v, raw i v ∉ ws) → (putAll parse number entry ws l)[i]? = l[i]? := by
  refine ⟨fun i v hmem => ?_, fun i hnone => getElem?_putAll_of_ne (fun w hw heq => ?_) l⟩
  · obtain ⟨v', hv'⟩ := hparse _ hmem
    have heq : v = v' := hinj i v v' (by simpa only [hnumber] using hraw _ _ hv')
    have hput := getElem?_putAll_of_mem (entry := entry) hnodup hmem hv' (hlt _ hmem)
    rwa [hnumber, ← heq] at hput
  · obtain ⟨v, hv⟩ := hparse w hw
    refine hnone v ?_
    rw [← heq, ← hraw w v hv]
    exact hw

/-! ## A table filled from pairs -/

theorem tableGet_foldl_tableSet_of_ne {α : Type} {pairs : List (Nat × α)} {i : Nat} (h : ∀ p ∈ pairs, p.1 ≠ i) (t : Table α) :
    tableGet (pairs.foldl (fun t p => tableSet t p.1 p.2) t) i = tableGet t i := by
  induction pairs generalizing t with
  | nil => rfl
  | cons p rest ih =>
    rw [List.foldl_cons, ih fun q hq => h q (List.mem_cons_of_mem _ hq)]
    exact tableGet_tableSet_ne t p.2 (h p List.mem_cons_self).symm

theorem tableGet_foldl_tableSet_of_mem {α : Type} {pairs : List (Nat × α)} (hnodup : (pairs.map (·.1)).Nodup) {i : Nat} {v : α}
    (hmem : (i, v) ∈ pairs) (t : Table α) : tableGet (pairs.foldl (fun t p => tableSet t p.1 p.2) t) i = some v := by
  induction pairs generalizing t with
  | nil => cases hmem
  | cons p rest ih =>
    obtain ⟨hnew, hrest⟩ := List.nodup_cons.mp hnodup
    rw [List.foldl_cons]
    obtain rfl | hmem := List.mem_cons.mp hmem
    · rw [tableGet_foldl_tableSet_of_ne fun q hq heq => hnew (List.mem_map.mpr ⟨q, hq, heq⟩)]
      exact tableGet_tableSet_same t i v
    · exact ih hrest hmem _

theorem tableGet_tableOf_iff {α : Type} {pairs : List (Nat × α)} (hnodup : (pairs.map (·.1)).Nodup) (i : Nat) (v : α) :
    tableGet (tableOf pairs) i = some v ↔ (i, v) ∈ pairs :=
  ⟨fun h => mem_tableOf (mem_of_tableGet h), fun h => tableGet_foldl_tableSet_of_mem hnodup h []⟩

theorem tableGet_imageElementTable {l : List ImageRecord} (hok : ∀ x ∈ l, recordOk x = true) (hnodup : (numbersOf 6 l).Nodup)
    (i : Nat) (e : Element) : tableGet (imageElementTable l) i = some e ↔ ImageRecord.element (rawElement i e) ∈ l := by
  rw [imageElementTable, tableGet_tableOf_iff, List.mem_map]
  · constructor
    · rintro ⟨w, hw, heq⟩
      have hmem := mem_imageElements.mp hw
      obtain ⟨rfl, rfl⟩ := Prod.mk.inj heq
      rwa [rawElement_elementOf (hok _ hmem)]
    · exact fun h => ⟨_, mem_imageElements.mpr h, rfl⟩
  · rw [List.map_map]
    exact numbersOf_elements l ▸ hnodup

theorem tableGet_imageAttachmentTable {l : List ImageRecord} (hnodup : (numbersOf 7 l).Nodup) (i : Nat) (a : Attachment) :
    tableGet (imageAttachmentTable l) i = some a ↔ ImageRecord.attachment i (rawAttach a) ∈ l ∧ a.validity = .valid := by
  rw [imageAttachmentTable, tableGet_tableOf_iff, List.mem_map]
  · constructor
    · rintro ⟨⟨j, w⟩, hw, heq⟩
      obtain ⟨rfl, rfl⟩ := Prod.mk.inj heq
      exact ⟨mem_imageAttachments.mp hw, rfl⟩
    · rintro ⟨hmem, hvalid⟩
      refine ⟨_, mem_imageAttachments.mpr hmem, ?_⟩
      cases a
      simp_all [rawAttach, attachmentOf]
  · rw [List.map_map]
    exact numbersOf_attachments l ▸ hnodup

/-- The attachments of an image after a change of their validities alone. -/
theorem tableGet_tableMap_imageAttachmentTable {l : List ImageRecord} (hnodup : (numbersOf 7 l).Nodup) {f : Attachment → Attachment}
    (hf : ∀ a, rawAttach (f a) = rawAttach a) (i : Nat) (a : Attachment) :
    tableGet (tableMap (imageAttachmentTable l) f) i = some a ↔
      ImageRecord.attachment i (rawAttach a) ∈ l ∧ a.validity = (f { a with validity := .valid }).validity := by
  have hget : tableGet (tableMap (imageAttachmentTable l) f) i = (tableGet (imageAttachmentTable l) i).map f :=
    tableGet_map _ (fun _ => f) i
  have hsame {x y : Attachment} (hraw : rawAttach x = rawAttach y) (hvalidity : x.validity = y.validity) : x = y := by
    cases x; cases y; simp_all [rawAttach]
  rw [hget, Option.map_eq_some_iff]
  simp only [tableGet_imageAttachmentTable hnodup]
  constructor
  · rintro ⟨x, ⟨hmem, hvalid⟩, rfl⟩
    refine ⟨(hf x).symm ▸ hmem, congrArg (fun y => (f y).validity) (hsame ?_ hvalid)⟩
    exact (hf x).symm.trans rfl
  · rintro ⟨hmem, hvalid⟩
    exact ⟨{ a with validity := .valid }, ⟨hmem, rfl⟩, hsame (hf _) hvalid.symm⟩

/-! ## The map of a load (R193, steps 5 to 7) -/

/-- The state a map's validation gives it (R193, step 5). -/
def loadedState (t : Table Element) : MapState :=
  if t = [] then .empty else if validate t = none then .ready else .edit

/-- The attachments of a load by the state of its map (R193, step 6). -/
def loadedAttachments (t : Table Element) (as : Table Attachment) : Table Attachment :=
  match loadedState t with
  | .empty => allStale as
  | .ready => attachmentPass t as
  | .edit => as

theorem loadMap_eq (l : List ImageRecord) (s : State) : loadMap l s =
    { s with
      map := { s.map with
        state := loadedState s.map.elements
        error := if s.map.elements = [] then none else validate s.map.elements
        attachments := loadedAttachments s.map.elements (imageAttachmentTable l) }
      tlm := rebuild (if loadedState s.map.elements = .ready then legAddresses s.map.elements else []) s.tlm } := by
  unfold loadMap loadedAttachments loadedState
  by_cases hnil : s.map.elements = []
  · simp [hnil]
  · cases hvalid : validate s.map.elements <;> simp [hnil, hvalid]

theorem tableGet_loadedAttachments {l : List ImageRecord} (hnodup : (numbersOf 7 l).Nodup) (t : Table Element) (i : Nat)
    (a : Attachment) : tableGet (loadedAttachments t (imageAttachmentTable l)) i = some a ↔
      ImageRecord.attachment i (rawAttach a) ∈ l ∧ a.validity =
        (if loadedState t = .empty ∨ (loadedState t = .ready ∧ attachmentFits t a = false) then .stale else .valid) := by
  unfold loadedAttachments
  cases loadedState t with
  | empty => simpa [allStale] using tableGet_tableMap_imageAttachmentTable hnodup (f := fun a => { a with validity := .stale }) (fun _ => rfl) i a
  | ready =>
    refine (tableGet_tableMap_imageAttachmentTable hnodup (fun a => by split <;> rfl) i a).trans (and_congr_right fun _ => ?_)
    have hfits : attachmentFits t { a with validity := .valid } = attachmentFits t a := rfl
    rw [hfits]
    cases attachmentFits t a <;> simp
  | edit => simpa using tableGet_imageAttachmentTable hnodup i a

theorem tableOk_loadedAttachments {t : Table Element} {as : Table Attachment} (h : tableOk 1024 as = true) :
    tableOk 1024 (loadedAttachments t as) = true := by
  unfold loadedAttachments
  cases loadedState t with
  | empty => exact tableOk_tableMap _ h
  | ready => exact tableOk_tableMap _ h
  | edit => exact h

/-! ## The whole load (R193) -/

theorem loadElements_eq (l : List ImageRecord) (s : State) : loadElements l s =
    { s with
      map := { s.map with elements := imageElementTable l }
      echo := if s.map.state = .ready then
          { s.echo with analysis := s.echo.analysis.map (fun a => { a with mapLeft := true }) } else s.echo
      tally := { s.tally with records := if s.map.state = .ready then [] else s.tally.records } } := by
  unfold loadElements leaveReady
  by_cases hready : s.map.state = .ready
  · simp only [if_pos hready]; rfl
  · simp only [if_neg hready]

/-- The reports after the settings of a load (R57). -/
def reportsOfSettings (n : Settings) (s : State) : Reports :=
  if n.promote = s.mgmt.settings.promote then s.reports
  else (List.replicate (s.tally.records.filter (fun p =>
    p.2.state == .watch && decide (n.promote ≤ p.2.voters.length))).length Event.newSuspect).foldl raiseEvent s.reports

theorem reportsOfSettings_frame (n : Settings) (s : State) : (reportsOfSettings n s).slots = s.reports.slots
    ∧ (reportsOfSettings n s).alarms = s.reports.alarms := by
  unfold reportsOfSettings
  split
  · exact ⟨rfl, rfl⟩
  · exact ⟨raiseEvents_slots _ s, raiseEvents_alarms _ s⟩

/-- The state after the first three steps of a load. -/
theorem loadTables_eq {l : List ImageRecord} {n : Settings} {s : State} (hn : loadSettings l s = applySettings n s) :
    loadTables l s =
      { s with
        sweep := { s.sweep with corrections := putCorrections (imageCorrections l) s.sweep.corrections }
        bands := { s.bands with
          bands := putAll bandOf (·.band) freshBand (imageBands l) s.bands.bands
          intervalDue :=
            if n.mode = s.mgmt.settings.mode ∧ (n.mode = .manual ∨ n.interval = s.mgmt.settings.interval)
            then s.bands.intervalDue
            else if n.mode = .auto then some (s.clocks.elapsed + n.interval * 1000) else none }
        echo := { s.echo with channels := putAll channelOf (·.channel) id (imageChannels l) s.echo.channels }
        tally := { s.tally with
          agingDue := if n.aging = s.mgmt.settings.aging then s.tally.agingDue else s.clocks.elapsed + n.aging * 1000
          records :=
            if n.promote = s.mgmt.settings.promote then s.tally.records
            else s.tally.records.map (fun p => (p.1,
              { p.2 with state := if n.promote ≤ p.2.voters.length then .suspect else .watch })) }
        mgmt := { s.mgmt with settings := n }
        reports := (slotsInOrder l).foldl (putSlot s.clocks.elapsed)
          { reportsOfSettings n s with
            alarms := putAll alarmOf (·.line) id (imageAlarms l) (reportsOfSettings n s).alarms } } := by
  rw [loadTables, hn, loadSlots_eq, loadEntries_eq, applySettings_eq]
  rfl

/-- The last five steps of a load, which write no table entry. -/
theorem loadGood_of_loadTables (l : List ImageRecord) (s : State) : loadGood l s =
    let t := loadTables l s
    { t with
      map := { t.map with
        elements := imageElementTable l
        state := loadedState (imageElementTable l)
        error := if imageElementTable l = [] then none else validate (imageElementTable l)
        attachments := loadedAttachments (imageElementTable l) (imageAttachmentTable l) }
      echo := if t.map.state = .ready then
          { t.echo with analysis := t.echo.analysis.map (fun a => { a with mapLeft := true }) } else t.echo
      tally := { t.tally with records := if t.map.state = .ready then [] else t.tally.records }
      tlm := rebuild (if loadedState (imageElementTable l) = .ready then legAddresses (imageElementTable l) else []) t.tlm
      image := { t.image with status := .loaded, load := none } } := by
  rw [loadGood_eq, loadMap_eq, loadElements_eq]
  rfl

end Sys2Proof.Machine
end

section
/-! IMAGE_LOAD and the completion of every load (O24). -/

namespace Sys2Proof.Machine

section
variable {f : Flash} (hgood : imageGood f = true)
include hgood

theorem recordPasses_of_imageGood {x : ImageRecord} (hx : x ∈ f.records) : recordPasses x :=
  (recordOk_iff x).mp (recordOk_of_imageGood hgood hx)

theorem putChannels_spec {l : List Channel} (hl : l.length = 8) :
    (∀ i c, ImageRecord.channel (rawChannel i c) ∈ f.records →
        (putAll channelOf (·.channel) id (imageChannels f.records) l)[i]? = some c)
      ∧ ∀ i, (∀ c, ImageRecord.channel (rawChannel i c) ∉ f.records) →
        (putAll channelOf (·.channel) id (imageChannels f.records) l)[i]? = l[i]? := by
  have hpasses : ∀ w ∈ imageChannels f.records, w.channel ≤ 7 ∧ ∃ c, channelOf w = some c := fun w hw =>
    recordPasses_of_imageGood hgood (mem_imageChannels.mp hw)
  simpa only [mem_imageChannels, id] using putAll_spec (raw := rawChannel) (entry := id) (l := l)
    (fun w hw => (hpasses w hw).2) (fun _ _ => rawChannel_of_channelOf) (fun _ _ _ => rawChannel_inj) (fun _ _ => rfl)
    (numbersOf_channels f.records ▸ nodup_numbersOf hgood 1 (by decide))
    (fun w hw => by obtain ⟨hn, -⟩ := hpasses w hw; omega)

theorem putBands_spec {l : List BandSlot} (hl : l.length = 32) :
    (∀ i b, ImageRecord.band (rawBand i b) ∈ f.records →
        (putAll bandOf (·.band) freshBand (imageBands f.records) l)[i]? = some (freshBand b))
      ∧ ∀ i, (∀ b, ImageRecord.band (rawBand i b) ∉ f.records) →
        (putAll bandOf (·.band) freshBand (imageBands f.records) l)[i]? = l[i]? := by
  have hpasses : ∀ w ∈ imageBands f.records, w.band ≤ 31 ∧ ∃ b, bandOf w = some b := fun w hw =>
    recordPasses_of_imageGood hgood (mem_imageBands.mp hw)
  simpa only [mem_imageBands] using putAll_spec (raw := rawBand) (entry := freshBand) (l := l)
    (fun w hw => (hpasses w hw).2) (fun _ _ => rawBand_of_bandOf) (fun _ _ _ => rawBand_inj) (fun _ _ => rfl)
    (numbersOf_bands f.records ▸ nodup_numbersOf hgood 2 (by decide))
    (fun w hw => by obtain ⟨hn, -⟩ := hpasses w hw; omega)

theorem putAlarms_spec {l : List AlarmEntry} (hl : l.length = 4) :
    (∀ i e, ImageRecord.alarm (rawAlarm i e) ∈ f.records →
        (putAll alarmOf (·.line) id (imageAlarms f.records) l)[i]? = some e)
      ∧ ∀ i, (∀ e, ImageRecord.alarm (rawAlarm i e) ∉ f.records) →
        (putAll alarmOf (·.line) id (imageAlarms f.records) l)[i]? = l[i]? := by
  have hpasses : ∀ w ∈ imageAlarms f.records, w.line ≤ 3 ∧ ∃ e, alarmOf w = some e := fun w hw =>
    recordPasses_of_imageGood hgood (mem_imageAlarms.mp hw)
  simpa only [mem_imageAlarms, id] using putAll_spec (raw := rawAlarm) (entry := id) (l := l)
    (fun w hw => (hpasses w hw).2) (fun _ _ => rawAlarm_of_alarmOf) (fun _ _ _ => rawAlarm_inj) (fun _ _ => rfl)
    (numbersOf_alarms f.records ▸ nodup_numbersOf hgood 5 (by decide))
    (fun w hw => by obtain ⟨hn, -⟩ := hpasses w hw; omega)

theorem putCorrections_spec {l : List Correction} (hl : l.length = 32) :
    (∀ i c, ImageRecord.correction i c ∈ f.records → (putCorrections (imageCorrections f.records) l)[i]? = some c)
      ∧ ∀ i, (∀ c, ImageRecord.correction i c ∉ f.records) →
        (putCorrections (imageCorrections f.records) l)[i]? = l[i]? := by
  have hlt : ∀ p ∈ imageCorrections f.records, p.1 < l.length := by
    intro p hp
    obtain ⟨hn, -⟩ : p.1 ≤ 31 ∧ _ := recordPasses_of_imageGood hgood (mem_imageCorrections.mp hp)
    omega
  rw [putCorrections_eq hlt]
  simpa only [mem_imageCorrections, id] using putAll_spec (raw := Prod.mk) (entry := id) (l := l)
    (fun p _ => ⟨p.2, rfl⟩) (fun w v h => Prod.ext rfl (Option.some.inj h)) (fun _ _ _ h => (Prod.mk.inj h).2)
    (fun _ _ => rfl) (numbersOf_corrections f.records ▸ nodup_numbersOf hgood 3 (by decide)) hlt

/-! ## The report slots (R193, step 3) -/

theorem slotOf_of_mem {w : RawSlot} (hw : w ∈ slotsInOrder f.records) : w.slot ≤ 7 ∧ ∃ e, slotOf w = some e := by
  obtain ⟨-, hslot, hentry⟩ : slotShapeOk w = true ∧ w.slot ≤ 7 ∧ ∃ e, slotOf w = some e :=
    recordPasses_of_imageGood hgood (mem_slotsInOrder.mp hw)
  exact ⟨hslot, hentry⟩

theorem nodup_slotsInOrder : ((slotsInOrder f.records).map (·.slot)).Nodup := by
  refine ((sortBy_perm _ _).map _).nodup_iff.mpr ?_
  exact numbersOf_slots f.records ▸ nodup_numbersOf hgood 4 (by decide)

theorem slotsInOrder_pairwise : (slotsInOrder f.records).Pairwise (fun a b => a.slot < b.slot) := by
  have hle : (slotsInOrder f.records).Pairwise (fun a b => a.slot ≤ b.slot) :=
    sortBy_pairwise (fun a b : RawSlot => decide (a.slot ≤ b.slot)) (fun a b => a.slot ≤ b.slot) Nat.le_trans of_decide_eq_true
      (fun h => Nat.le_of_lt (Nat.lt_of_not_le (of_decide_eq_false h))) _
  exact (hle.and (List.pairwise_map.mp (nodup_slotsInOrder hgood))).imp fun ⟨h, hne⟩ => Nat.lt_of_le_of_ne h hne

theorem putSlots_spec (now : Nat) {l : List ReportSlot} (hl : l.length = 8) :
    (∀ i e, ImageRecord.slot (rawSlot i e) ∈ f.records →
        (putAll slotOf (·.slot) (freshSlot now) (slotsInOrder f.records) l)[i]? = some (freshSlot now e))
      ∧ ∀ i, (∀ e, ImageRecord.slot (rawSlot i e) ∉ f.records) →
        (putAll slotOf (·.slot) (freshSlot now) (slotsInOrder f.records) l)[i]? = l[i]? := by
  simpa only [mem_slotsInOrder] using putAll_spec (raw := rawSlot) (entry := freshSlot now) (l := l)
    (fun w hw => (slotOf_of_mem hgood hw).2) (fun _ _ => rawSlot_of_slotOf) (fun _ _ _ => rawSlot_inj) (fun _ _ => rfl)
    (nodup_slotsInOrder hgood) (fun w hw => by obtain ⟨hn, -⟩ := slotOf_of_mem hgood hw; omega)

/-- The slots a load queues, in ascending number. -/
theorem queuedBy_spec : ((slotsInOrder f.records).filterMap queuedBy).Pairwise (fun a b => a.slot < b.slot)
    ∧ ∀ q, q ∈ (slotsInOrder f.records).filterMap queuedBy ↔ q.cause = .now ∧ q.count = 1
        ∧ ∃ e, ImageRecord.slot (rawSlot q.slot e) ∈ f.records ∧ e.enabled = true ∧ e.trigger = .now := by
  refine ⟨(slotsInOrder_pairwise hgood).filterMap _ fun w x hlt q hq r hr => ?_, fun q => ?_⟩
  · rw [slot_of_queuedBy hq, slot_of_queuedBy hr]
    exact hlt
  rw [List.mem_filterMap]
  constructor
  · rintro ⟨w, hw, hq⟩
    obtain ⟨e, he, hnow⟩ := Option.bind_eq_some_iff.mp hq
    rw [Option.ite_none_right_eq_some] at hnow
    obtain ⟨⟨henabled, htrigger⟩, heq⟩ := hnow
    cases heq
    refine ⟨rfl, rfl, e, ?_, henabled, htrigger⟩
    rw [← rawSlot_of_slotOf he]
    exact mem_slotsInOrder.mp hw
  · rintro ⟨hcause, hcount, e, hmem, henabled, htrigger⟩
    obtain ⟨-, e', he'⟩ := slotOf_of_mem hgood (mem_slotsInOrder.mpr hmem)
    obtain rfl : e = e' := rawSlot_inj (rawSlot_of_slotOf he')
    refine ⟨_, mem_slotsInOrder.mpr hmem, ?_⟩
    rw [queuedBy, he', Option.bind_some, if_pos ⟨henabled, htrigger⟩]
    obtain ⟨slot, cause, count⟩ := q
    obtain rfl : cause = .now := hcause
    obtain rfl : count = 1 := hcount
    rfl

theorem foldl_putSlot_slotsInOrder (now : Nat) (r : Reports) : (slotsInOrder f.records).foldl (putSlot now) r =
    { r with
      slots := putAll slotOf (·.slot) (freshSlot now) (slotsInOrder f.records) r.slots
      queue := r.queue.filter (fun q => !(imageSlots f.records).any (fun w => w.slot == q.slot))
        ++ (slotsInOrder f.records).filterMap queuedBy } := by
  have hany (q : QueuedSlot) : (slotsInOrder f.records).any (fun w => w.slot == q.slot) =
      (imageSlots f.records).any (fun w => w.slot == q.slot) := (sortBy_perm _ _).any_eq
  rw [foldl_putSlot now (fun w hw => (slotOf_of_mem hgood hw).2) (nodup_slotsInOrder hgood)]
  simp only [hany]

/-! ## The settings (R193, step 1) -/

theorem exists_settings : ∃ n, ImageRecord.settings (rawSettings n) ∈ f.records
    ∧ ∀ s, loadSettings f.records s = applySettings n s := by
  obtain ⟨-, -, -, hsome, -⟩ := (imageGood_iff f).mp hgood
  have hone : (imageSettings f.records).length = 1 :=
    (length_imageSettings_eq_one_iff _).mpr ⟨hsome, nodup_numbersOf hgood 0 (by decide)⟩
  obtain ⟨w, hw⟩ := List.length_eq_one_iff.mp hone
  have hmem : ImageRecord.settings w ∈ f.records := mem_imageSettings.mp (hw ▸ List.mem_singleton_self w)
  refine ⟨settingsOf w, ?_, fun s => by rw [loadSettings, hw]; rfl⟩
  rw [rawSettings_settingsOf (recordPasses_of_imageGood hgood hmem)]
  exact hmem

/-! ## The tables after a load -/

omit hgood in
theorem channels_ite_mapLeft (p : Prop) [Decidable p] (e : Echo) :
    (if p then { e with analysis := e.analysis.map (fun a => { a with mapLeft := true }) } else e).channels = e.channels := by
  split <;> rfl

theorem tablesLoaded_loadGood {n : Settings} {s : State} (hmem : ImageRecord.settings (rawSettings n) ∈ f.records)
    (hn : loadSettings f.records s = applySettings n s) (htable : TableLaw s) :
    TablesLoaded f.records n s (loadGood f.records s) := by
  obtain ⟨hchannels, hbands, hcorrections, hslots, halarms⟩ := (tableLaw_iff s).mp htable
  obtain ⟨hframeSlots, hframeAlarms⟩ := reportsOfSettings_frame n s
  have hok : ∀ x ∈ f.records, recordOk x = true := fun x hx => recordOk_of_imageGood hgood hx
  have helements := elementsOk_imageElementTable hok
  have hattachments := attachmentsOk_imageAttachmentTable hok (stations_of_imageGood hgood)
  obtain ⟨hchannel, hchannel'⟩ := putChannels_spec hgood hchannels.length
  obtain ⟨hband, hband'⟩ := putBands_spec hgood hbands.length
  obtain ⟨hcorrection, hcorrection'⟩ := putCorrections_spec hgood hcorrections.length
  obtain ⟨halarm, halarm'⟩ := putAlarms_spec hgood halarms.length
  obtain ⟨hslot, hslot'⟩ := putSlots_spec hgood s.clocks.elapsed hslots.length
  obtain ⟨hrising, hqueued⟩ := queuedBy_spec hgood
  rw [loadGood_of_loadTables, loadTables_eq hn, foldl_putSlot_slotsInOrder hgood, hframeSlots, hframeAlarms]
  simp only [freshSlot, periodStart_eq] at hslot
  refine ⟨hmem, rfl, rfl, rfl, ?_, ?_, hband, hband', hcorrection, hcorrection', halarm, halarm', hslot, hslot',
    ⟨_, rfl, hrising, hqueued⟩, rfl, rfl, rfl, helements.table, tableGet_imageElementTable hok (nodup_numbersOf hgood 6 (by decide)),
    ?_, ?_, ?_, rfl, tableOk_loadedAttachments hattachments.table,
    tableGet_loadedAttachments (nodup_numbersOf hgood 7 (by decide)) _, rfl, ?_, rfl, rfl, rfl, rfl, rfl, rfl, rfl⟩
  · intro i c hc
    rw [← hchannel i c hc]
    exact congrArg (·[i]?) (channels_ite_mapLeft _ _)
  · intro i hc
    rw [← hchannel' i hc]
    exact congrArg (·[i]?) (channels_ite_mapLeft _ _)
  · intro hnil
    exact ⟨if_pos hnil, if_pos hnil⟩
  · intro hnil hvalid
    exact ⟨(if_neg hnil).trans (if_pos hvalid), (if_neg hnil).trans hvalid⟩
  · intro e hnil hvalid
    exact ⟨(if_neg hnil).trans (if_neg (by rw [hvalid]; exact Option.some_ne_none e)), (if_neg hnil).trans hvalid⟩
  · dsimp only
    by_cases hready : s.map.state = .ready
    · simp only [if_pos hready]
    · simp only [if_neg hready]

end

/-! ## IMAGE_LOAD and its completion (R193, R194) -/

theorem imageLoadOwn_eq (r : Request) (s : State) : imageLoadOwn r s =
    if s.search.record ≠ none then replied r .searchActive .empty s
    else if s.map.state = .edit then replied r .mapState .empty s
    else hold (beginLoad .request s) := by
  unfold imageLoadOwn
  simp only [Option.isSome_iff_ne_none]
  rfl

theorem completeLoad_of_good {who : LoadOrigin} {s : State} (hwho : s.image.load = some who)
    (hgood : imageGood s.image.flash = true) : completeLoad s = answerLoad who (loadGood s.image.flash.records s) := by
  simp only [completeLoad, hwho, hgood, if_true]

theorem completeLoad_of_bad {who : LoadOrigin} {s : State} (hwho : s.image.load = some who)
    (hbad : imageGood s.image.flash = false) : completeLoad s = answerLoad who (setStatus .invalid s) := by
  simp only [completeLoad, hwho, hbad, Bool.false_eq_true, if_false]

theorem mgmt_loadGood {l : List ImageRecord} {n : Settings} {s : State} (hn : loadSettings l s = applySettings n s) :
    (loadGood l s).mgmt = { s.mgmt with settings := n } := by
  rw [loadGood_of_loadTables, loadTables_eq hn]

/-- The completion a waiting load's request is answered with (R178, R194). -/
theorem answerLoad_of_cons {who : LoadOrigin} {r : Request} {rest : List Request} {s : State} (hwho : who ≠ .startUp)
    (hr : s.mgmt.requests = r :: rest) : answerLoad who s =
      replied r (if who = .request ∧ s.image.status = .invalid then .imageBad else .ok)
        (if who = .request ∧ s.image.status = .loaded then .imageLoaded .loaded s.map.state s.map.error
         else .imageStatus s.image.status) s := by
  cases who with
  | startUp => exact absurd rfl hwho
  | resetAll => simpa [answerLoad] using answerHead_cons .ok (.imageStatus s.image.status) hr
  | request =>
    cases hstatus : s.image.status with
    | loaded => simpa [answerLoad, hstatus] using answerHead_cons .ok (.imageLoaded .loaded s.map.state s.map.error) hr
    | invalid => simpa [answerLoad, hstatus] using answerHead_cons .imageBad (.imageStatus .invalid) hr

/-- What a load makes of the tables does not speak of the queues, in which its request is answered. -/
theorem tablesLoaded_replied {l : List ImageRecord} {n : Settings} {s t : State} (h : TablesLoaded l n s t) (r : Request)
    (code : Completion) (body : Body) : TablesLoaded l n s (replied r code body t) := h

/-- Settles O24: the refusals in their order, and the completion of a load by its image and its origin. -/
theorem imageLoad : Obligations.ImageLoad := by
  refine ⟨fun h s he => ?_, fun s hquiet hload hbad => ?_, fun s hquiet hload hgood htable => ?_, fun f => imageGood_iff f,
    fun who r rest s hquiet hload hwho hr => ⟨fun hbad => ?_, fun hgood htable => ?_⟩⟩
  · refine (runRequest_of_executes _ he).trans ?_
    rw [noBody_eq, imageLoadOwn_eq]
    rfl
  · refine (inTurn_of_quiet _ hquiet).trans ?_
    rw [completeLoad_of_bad hload hbad]
    rfl
  · obtain ⟨n, hmem, hn⟩ := exists_settings hgood
    refine ⟨_, n, (inTurn_of_quiet _ hquiet).trans ?_, tablesLoaded_loadGood hgood hmem (hn s) htable, mgmt_loadGood (hn s)⟩
    rw [completeLoad_of_good hload hgood]
    rfl
  · refine (inTurn_of_quiet _ hquiet).trans ?_
    have hhead : (setStatus .invalid s).mgmt.requests = r :: rest := hr
    rw [completeLoad_of_bad hload hbad, answerLoad_of_cons hwho hhead]
    simp only [setStatus, replied, reduceCtorEq, and_false, and_true, if_false]
  · obtain ⟨n, hmem, hn⟩ := exists_settings hgood
    have hmgmt := mgmt_loadGood (hn s)
    have hstatus : (loadGood s.image.flash.records s).image.status = .loaded := rfl
    have hhead : (loadGood s.image.flash.records s).mgmt.requests = r :: rest := by rw [hmgmt]; exact hr
    have hdone := answerLoad_of_cons hwho hhead
    rw [hstatus, if_neg (fun h => nomatch h.2), ← completeLoad_of_good hload hgood] at hdone
    simp only [and_true] at hdone
    refine ⟨_, n, (inTurn_of_quiet _ hquiet).trans (congrArg _ hdone),
      tablesLoaded_replied (tablesLoaded_loadGood hgood hmem (hn s) htable) r .ok _, ?_⟩
    rw [← hmgmt]
    rfl

end Sys2Proof.Machine
end

section
/-! Loss and return of signal, and the header tests (O28, O29). -/

namespace Sys2Proof.Machine

/-! ## Loss of lock and of signal (R74, R150, R151) -/

theorem discardAssembly_eq (why : DiscardReason) (w : Sweep) : discardAssembly why w =
    if w.assembly = .idle then w
    else { w with assembly := .idle, incomplete := min 65535 (w.incomplete + 1), lastDiscard := some why } := by
  unfold discardAssembly
  cases w.assembly <;> rfl

/-- The link after a lane's loss of lock. -/
def lockLost (which : Lane) (cursor : Nat) (signal : Bool) (l : Link) : Link :=
  l.setLane which { l.lane which with
    lock := .hunting 0 none, cursor := cursor, signal := signal, rx := none
    lockLosses := min 65535 ((l.lane which).lockLosses + 1) }

theorem loseLock_hubSide (cursor : Nat) (signal : Bool) (s : State) :
    loseLock .hubSide cursor signal s = { s with link := lockLost .hubSide cursor signal s.link } := rfl

theorem loseLock_nodeSide (cursor : Nat) (signal : Bool) (s : State) : loseLock .nodeSide cursor signal s =
    fixCause .linkLost
      { s with
        link := lockLost .nodeSide cursor signal s.link
        sweep :=
          if s.sweep.assembly = .idle then s.sweep
          else { s.sweep with assembly := .idle, incomplete := min 65535 (s.sweep.incomplete + 1),
                              lastDiscard := some .lockLost } } := by
  rw [← discardAssembly_eq]
  rfl

theorem loseSignal_of_locked {lane : Lane} {run p : Nat} {s : State} (h : (s.link.lane lane).lock = .locked run p) :
    loseSignal lane s = loseLock lane s.link.byteTime false s := by
  simp only [loseSignal, h]

theorem loseSignal_of_hunting {lane : Lane} {run : Nat} {expected : Option Nat} {s : State}
    (h : (s.link.lane lane).lock = .hunting run expected) : loseSignal lane s =
      { s with link := s.link.setLane lane { s.link.lane lane with lock := .hunting 0 none, signal := false } } := by
  simp only [loseSignal, h]

/-- Settles O28: by the lane and its lock, and by the state of a running search. -/
theorem signalLossAndReturn : Obligations.SignalLossAndReturn := by
  refine ⟨fun run p s hquiet hlock => ?_, fun run p s hquiet hlock => ?_, fun cause s hidle => ?_, fun cause x s hx => ?_,
    fun lane run expected s hquiet hlock => ?_, fun lane s hquiet hsignal => ?_⟩
  · refine (inTurn_of_quiet _ hquiet).trans ?_
    rw [loseSignal_of_locked (lane := .hubSide) hlock]
    rfl
  · refine (inTurn_of_quiet _ hquiet).trans ?_
    rw [loseSignal_of_locked (lane := .nodeSide) hlock, loseLock_nodeSide]
    rfl
  · simp only [fixCause, hidle]
  · exact ⟨fixCause_of_ending hx, fixCause_of_baseline hx, fixCause_of_step_posted hx, fixCause_of_waiting hx,
      fun l => fixCause_of_stepped hx⟩
  · exact (inTurn_of_quiet _ hquiet).trans (congrArg _ (loseSignal_of_hunting hlock))
  · refine (inTurn_of_quiet _ hquiet).trans ?_
    simp only [regainSignal, hsignal, Bool.false_eq_true, if_false]

/-! ## The header tests (R149, R150) -/

/-- The link as a lane's event at a byte moment leaves it. -/
def laneEvent (lane : Lane) (p : Nat) (x : RxLane) (l : Link) : Link := notePeak ((reachByte p l).setLane lane x)

theorem laneEvent_lane (lane : Lane) (p : Nat) (x : RxLane) (l : Link) : (laneEvent lane p x l).lane lane = x := by
  simp [laneEvent]

/-- A change of one lane and the byte time stands beside everything else. -/
theorem laneEvent_beside (lane : Lane) (p : Nat) (x : RxLane) (l : Link) : LinkBeside lane p l (laneEvent lane p x l)
    ∧ (laneEvent lane p x l).through = l.through ∧ (laneEvent lane p x l).store = l.store
    ∧ (laneEvent lane p x l).requestsTaken = l.requestsTaken := by
  cases lane <;> exact ⟨⟨rfl, rfl, rfl, rfl, rfl, rfl, rfl, rfl⟩, rfl, rfl, rfl⟩

theorem testHeader_eq {lane : Lane} {hd : List Byte} {run : Nat} {expected : Option Nat} {s : State}
    (hlock : (s.link.lane lane).lock = .hunting run expected) (hsignal : (s.link.lane lane).signal = true)
    (horder : inOrder s.link (expected.getD (s.link.lane lane).cursor) = true) : testHeader lane hd s =
      let x := s.link.lane lane
      let p := expected.getD x.cursor
      { s with
        link := laneEvent lane p
          (if headerValid hd = true then
             if run ≤ 1 then { x with lock := .hunting (run + 1) (some (p + headerLength hd)) }
             else { x with lock := .locked 0 (p + headerLength hd), rx := some { header := hd, start := p } }
           else if run = 0 then { x with cursor := p + 1 }
           else { x with lock := .hunting 0 none, cursor := p }) s.link } := by
  have hthird : (2 ≤ run) = ¬ (run ≤ 1) := propext (by omega)
  simp only [testHeader, hlock, testedAt, hsignal, horder, Bool.and_self, if_true, hthird, ite_not]
  rfl

theorem beginFrame_eq {lane : Lane} {hd : List Byte} {run p : Nat} {s : State} (hlock : (s.link.lane lane).lock = .locked run p)
    (hrx : (s.link.lane lane).rx = none) (hvalid : headerValid hd = true) (horder : inOrder s.link p = true) :
    beginFrame lane hd s =
      { s with
        link := laneEvent lane p
          { s.link.lane lane with
            lock := .locked 0 (p + headerLength hd), rx := some { header := hd, start := p } } s.link } := by
  simp only [beginFrame, hlock, hrx, hvalid, horder, Bool.and_self, if_true]
  rfl

/-- A lane after a header that is not valid, before the loss of lock that the fourth makes. -/
def missedLane (run p : Nat) (x : RxLane) : RxLane :=
  { x with lock := .locked (run + 1) (p + 16), headerErrors := min 65535 (x.headerErrors + 1) }

theorem missHeader_eq {lane : Lane} {hd : List Byte} {run p : Nat} {s : State} (hlock : (s.link.lane lane).lock = .locked run p)
    (hrx : (s.link.lane lane).rx = none) (hinvalid : headerValid hd = false) (horder : inOrder s.link p = true) :
    missHeader lane hd s =
      let t := { s with link := laneEvent lane p (missedLane run p (s.link.lane lane)) s.link }
      if 3 ≤ run then loseLock lane p (s.link.lane lane).signal t else t := by
  unfold missHeader
  dsimp only
  split
  · next run' p' hrun hnone =>
    obtain ⟨rfl, rfl⟩ := LockState.locked.inj (hlock.symm.trans hrun)
    rw [hinvalid, horder]
    rfl
  · next hnone => exact absurd hrx (hnone run p hlock)

/-- The loss of lock at a missed header leaves a lane between frames, so the occupancy stands. -/
theorem lockLost_laneEvent {lane : Lane} {run p : Nat} {l : Link} (hrx : (l.lane lane).rx = none) :
    lockLost lane p (l.lane lane).signal (laneEvent lane p (missedLane run p (l.lane lane)) l) =
      laneEvent lane p
        { l.lane lane with
          lock := .hunting 0 none, cursor := p, headerErrors := min 65535 ((l.lane lane).headerErrors + 1)
          lockLosses := min 65535 ((l.lane lane).lockLosses + 1) } l := by
  cases lane with
  | hubSide =>
    have hrx : l.hub.rx = none := hrx
    simp [lockLost, laneEvent, missedLane, Link.setLane, Link.lane, notePeak, reachByte, occupancy, hrx]
  | nodeSide =>
    have hrx : l.node.rx = none := hrx
    simp [lockLost, laneEvent, missedLane, Link.setLane, Link.lane, notePeak, reachByte, occupancy, arriving, hrx]

/-- A lane whose fourth invalid header in a row has made it HUNTING. -/
def unlockedLane (p : Nat) (x : RxLane) : RxLane :=
  { x with
    lock := .hunting 0 none, cursor := p, headerErrors := min 65535 (x.headerErrors + 1)
    lockLosses := min 65535 (x.lockLosses + 1) }

theorem missHeader_of_le {lane : Lane} {hd : List Byte} {run p : Nat} {s : State}
    (hlock : (s.link.lane lane).lock = .locked run p) (hrx : (s.link.lane lane).rx = none) (hinvalid : headerValid hd = false)
    (hrun : run ≤ 2) (horder : inOrder s.link p = true) :
    missHeader lane hd s = { s with link := laneEvent lane p (missedLane run p (s.link.lane lane)) s.link } := by
  rw [missHeader_eq hlock hrx hinvalid horder]
  exact if_neg (by omega)

theorem missHeader_hubSide {hd : List Byte} {p : Nat} {s : State} (hlock : s.link.hub.lock = .locked 3 p)
    (hrx : s.link.hub.rx = none) (hinvalid : headerValid hd = false) (horder : inOrder s.link p = true) :
    missHeader .hubSide hd s = { s with link := laneEvent .hubSide p (unlockedLane p s.link.hub) s.link } := by
  have hlost := lockLost_laneEvent (lane := .hubSide) (run := 3) (p := p) hrx
  rw [missHeader_eq (lane := .hubSide) hlock hrx hinvalid horder]
  exact (if_pos (Nat.le_refl 3)).trans (congrArg (fun l => { s with link := l }) hlost)

theorem missHeader_nodeSide {hd : List Byte} {p : Nat} {s : State} (hlock : s.link.node.lock = .locked 3 p)
    (hrx : s.link.node.rx = none) (hinvalid : headerValid hd = false) (horder : inOrder s.link p = true) :
    missHeader .nodeSide hd s = fixCause .linkLost
      { s with
        link := laneEvent .nodeSide p (unlockedLane p s.link.node) s.link
        sweep :=
          if s.sweep.assembly = .idle then s.sweep
          else { s.sweep with assembly := .idle, incomplete := min 65535 (s.sweep.incomplete + 1),
                              lastDiscard := some .lockLost } } := by
  have hlost := lockLost_laneEvent (lane := .nodeSide) (run := 3) (p := p) hrx
  rw [missHeader_eq (lane := .nodeSide) hlock hrx hinvalid horder, if_pos (Nat.le_refl 3), loseLock_nodeSide]
  exact congrArg (fun l => fixCause .linkLost { s with link := l, sweep := _ }) hlost

theorem laneDue_eq (x : RxLane) : laneDue x =
    match x.lock, x.rx with
    | .locked _ _, some r => some (r.start + headerLength r.header)
    | .locked _ p, none => some p
    | .hunting _ expected, _ => if x.signal = true then some (expected.getD x.cursor) else none := by
  unfold laneDue wholeAt testedAt
  cases x.lock <;> cases x.rx <;> rfl

theorem headerValid_iff (h : List Byte) : headerValid h = true ↔
    h.length = 6 ∧ byteAt h 0 = 0xB7 ∧ 1 ≤ (byteAt h 2).toNat ∧ (byteAt h 2).toNat ≤ 35
      ∧ byteAt h 4 = ~~~(byteAt h 1 ^^^ byteAt h 2 ^^^ byteAt h 3)
      ∧ (byteAt h 5).toNat = ((byteAt h 0).toNat + (byteAt h 1).toNat + (byteAt h 2).toNat + (byteAt h 3).toNat) % 256
      ∧ (byteAt h 1 = 0x00 → byteAt h 2 = 1) := by
  have hsum : byteAt h 5 = byteAt h 0 + byteAt h 1 + byteAt h 2 + byteAt h 3 ↔
      (byteAt h 5).toNat = ((byteAt h 0).toNat + (byteAt h 1).toNat + (byteAt h 2).toNat + (byteAt h 3).toNat) % 256 := by
    rw [← BitVec.toNat_inj]
    simp only [BitVec.toNat_add]
    omega
  simp only [headerValid, Bool.and_eq_true, Bool.or_eq_true, decide_eq_true_eq, beq_iff_eq, bne_iff_ne, hsum, and_assoc,
    ne_eq, Decidable.imp_iff_not_or]

/-- Settles O29: by the lane's lock and the header it finds. -/
theorem headerTests : Obligations.HeaderTests := by
  refine ⟨fun lane hd run expected s hquiet hlock hsignal horder => ?_, fun lane hd run p s hquiet hlock hrx hvalid horder => ?_,
    fun lane hd run p s hquiet hlock hrx hinvalid hrun horder => ?_, fun hd p s hquiet hlock hrx hinvalid horder => ?_,
    fun hd p s hquiet hlock hrx hinvalid horder => ?_, inOrder_eq_true_iff, laneDue_eq,
    fun h => ⟨rfl, rfl, rfl, headerValid_iff h⟩⟩
  · exact ⟨_, (inTurn_of_quiet _ hquiet).trans (congrArg _ (testHeader_eq hlock hsignal horder)), laneEvent_lane _ _ _ _,
      laneEvent_beside _ _ _ _, rfl⟩
  · exact ⟨_, (inTurn_of_quiet _ hquiet).trans (congrArg _ (beginFrame_eq hlock hrx hvalid horder)), laneEvent_lane _ _ _ _,
      laneEvent_beside _ _ _ _, rfl⟩
  · exact ⟨_, (inTurn_of_quiet _ hquiet).trans (congrArg _ (missHeader_of_le hlock hrx hinvalid hrun horder)),
      laneEvent_lane _ _ _ _, laneEvent_beside _ _ _ _, rfl⟩
  · exact ⟨_, (inTurn_of_quiet _ hquiet).trans (congrArg _ (missHeader_hubSide hlock hrx hinvalid horder)), rfl,
      laneEvent_beside _ _ _ _, rfl⟩
  · exact ⟨_, (inTurn_of_quiet _ hquiet).trans (congrArg _ (missHeader_nodeSide hlock hrx hinvalid horder)), rfl, rfl,
      laneEvent_beside _ _ _ _, rfl⟩

end Sys2Proof.Machine
end

section
/-! Frames that arrive whole: descriptors, segments, requests and the rest (O30 to O32). -/

namespace Sys2Proof.Machine

/-! ## The link's part of an arrival (R152, R153, R155, R160) -/

theorem countArrival_eq (f : Sys2Proof.Frame) (x : RxLane) : countArrival f x = laneCounted f x := by
  unfold countArrival laneCounted kindFill
  simp only [Bool.and_eq_true, bne_iff_ne, Bool.not_eq_true']
  rfl

/-- What an arrival makes of the link beside the two stores. -/
theorem arrive_beside (lane : Lane) (f : Sys2Proof.Frame) (taken : Bool) (s : State) :
    LinkBeside lane (wholeAt (s.link.lane lane)) s.link (arrive lane f taken s).link
      ∧ (arrive lane f taken s).link.requestsTaken = s.link.requestsTaken := by
  unfold arrive storeFrame
  by_cases hfill : headerKind f = kindFill
  · simp only [if_pos hfill]
    cases lane <;> exact ⟨⟨rfl, rfl, rfl, rfl, rfl, rfl, rfl, rfl⟩, rfl⟩
  · simp only [if_neg hfill]
    cases lane <;> exact ⟨⟨rfl, rfl, rfl, rfl, rfl, rfl, rfl, rfl⟩, rfl⟩

theorem storeFrame_through (lane : Lane) (f : Sys2Proof.Frame) (taken : Bool) (l : Link) : (storeFrame lane f taken l).through =
    if headerKind f ≠ 0x00 ∧ lane = .nodeSide then l.through ++ [f] else l.through := by
  unfold storeFrame
  by_cases hfill : headerKind f = kindFill
  · rw [if_pos hfill, if_neg fun h => h.1 hfill]
  · rw [if_neg hfill]
    cases lane with
    | nodeSide => exact (if_pos ⟨hfill, rfl⟩).symm
    | hubSide => exact (if_neg (fun h => nomatch h.2)).symm

theorem storeFrame_store (lane : Lane) (f : Sys2Proof.Frame) (taken : Bool) (l : Link) : (storeFrame lane f taken l).store =
    if headerKind f ≠ 0x00 ∧ lane = .hubSide then l.store ++ [{ frame := f, taken := taken }] else l.store := by
  unfold storeFrame
  by_cases hfill : headerKind f = kindFill
  · rw [if_pos hfill, if_neg fun h => h.1 hfill]
  · rw [if_neg hfill]
    cases lane with
    | nodeSide => exact (if_neg (fun h => nomatch h.2)).symm
    | hubSide => exact (if_pos ⟨hfill, rfl⟩).symm

theorem arrive_through (lane : Lane) (f : Sys2Proof.Frame) (taken : Bool) (s : State) : (arrive lane f taken s).link.through =
    if headerKind f ≠ 0x00 ∧ lane = .nodeSide then s.link.through ++ [f] else s.link.through := by
  refine (storeFrame_through lane f taken _).trans ?_
  rw [setLane_through, reachByte_through]

theorem arrive_store (lane : Lane) (f : Sys2Proof.Frame) (taken : Bool) (s : State) : (arrive lane f taken s).link.store =
    if headerKind f ≠ 0x00 ∧ lane = .hubSide then s.link.store ++ [{ frame := f, taken := taken }] else s.link.store := by
  refine (storeFrame_store lane f taken _).trans ?_
  rw [setLane_store, reachByte_store]

/-- What a frame forwarded from the node side makes of the link. -/
theorem arrive_nodeSide {f : Sys2Proof.Frame} (hkind : headerKind f ≠ 0x00) (s : State) :
    (arrive .nodeSide f false s).link.node = laneCounted f s.link.node
      ∧ LinkBeside .nodeSide (wholeAt s.link.node) s.link (arrive .nodeSide f false s).link
      ∧ (arrive .nodeSide f false s).link.through = s.link.through ++ [f]
      ∧ (arrive .nodeSide f false s).link.store = s.link.store
      ∧ (arrive .nodeSide f false s).link.requestsTaken = s.link.requestsTaken := by
  obtain ⟨hbeside, htaken⟩ := arrive_beside .nodeSide f false s
  refine ⟨?_, hbeside, ?_, ?_, htaken⟩
  · exact (arrive_lane .nodeSide f false s).trans (countArrival_eq f s.link.node)
  · rw [arrive_through, if_pos ⟨hkind, rfl⟩]
  · rw [arrive_store, if_neg (fun h => nomatch h.2)]

theorem hasOwnRow_iff (lane : Lane) (f : Sys2Proof.Frame) (s : State) : hasOwnRow lane f s = true ↔
    match lane with
    | .nodeSide => headerKind f = 0x41 ∨ headerKind f = 0x42
    | .hubSide => headerKind f = 0x61 ∧ crcGood f = true ∧ (headerAddress f = s.mgmt.nodeAddress ∨ headerAddress f = 255) := by
  cases lane <;> simp [hasOwnRow, kindBurstDesc, kindSpectrumSeg, addressedToPart, kindMgmtReq, broadcast, and_assoc]

theorem wholeAt_of_some {x : RxLane} {r : Reception} (h : x.rx = some r) : wholeAt x = r.start + headerLength r.header := by
  simp only [wholeAt, h]

theorem locked_iff (x : RxLane) : x.locked = true ↔ ∃ run p, x.lock = .locked run p := by
  unfold RxLane.locked
  cases x.lock <;> simp

theorem arrives_iff (lane : Lane) (f : Sys2Proof.Frame) (l : Link) : arrives lane f l = true ↔
    ∃ run p r, (l.lane lane).lock = .locked run p ∧ (l.lane lane).rx = some r
      ∧ f.take 6 = r.header ∧ f.length = headerLength r.header ∧ inOrder l (r.start + headerLength r.header) = true := by
  simp only [arrives, isReceived, Bool.and_eq_true, locked_iff, Option.any_eq_true, beq_iff_eq, decide_eq_true_eq]
  constructor
  · rintro ⟨⟨⟨run, p, hlock⟩, r, hr, htake, hlength⟩, horder⟩
    exact ⟨run, p, r, hlock, hr, htake, hlength, wholeAt_of_some hr ▸ horder⟩
  · rintro ⟨run, p, r, hlock, hr, htake, hlength, horder⟩
    exact ⟨⟨⟨run, p, hlock⟩, r, hr, htake, hlength⟩, (wholeAt_of_some hr).symm ▸ horder⟩

/-! ## Bytes, fields and the check (R147, R148) -/

theorem beNat_append_singleton (l : List Byte) (b : Byte) : beNat (l ++ [b]) = beNat l * 256 + b.toNat := by
  simp [beNat, List.foldl_append]

theorem beNat_pair (hi lo : Byte) : beNat [hi, lo] = 256 * hi.toNat + lo.toNat := by
  simp [beNat]
  omega

theorem beInt16_pair (hi lo : Byte) : beInt16 [hi, lo] =
    if hi.toNat < 128 then (256 * hi.toNat + lo.toNat : Int) else 256 * hi.toNat + lo.toNat - 65536 := by
  have hhi := hi.isLt
  have hlo := lo.isLt
  have hnat : (BitVec.ofNat 16 (256 * hi.toNat + lo.toNat)).toNat = 256 * hi.toNat + lo.toNat := by
    simp only [BitVec.toNat_ofNat]
    omega
  rw [beInt16, beNat_pair, BitVec.toInt_eq_toNat_cond, hnat]
  split <;> split <;> omega

theorem field_pair {f : Sys2Proof.Frame} {i : Nat} (h : i + 1 < f.length) : field f i 2 = [byteAt f i, byteAt f (i + 1)] := by
  have hi : i < f.length := by omega
  rw [field, List.drop_eq_getElem_cons hi, List.take_succ_cons, List.drop_eq_getElem_cons h, List.take_succ_cons, List.take_zero]
  simp [byteAt, List.getD_eq_getElem?_getD, h, hi]

theorem field_four {f : Sys2Proof.Frame} {i : Nat} (h : i + 3 < f.length) :
    field f i 4 = [byteAt f i, byteAt f (i + 1), byteAt f (i + 2), byteAt f (i + 3)] := by
  have hsplit : field f i 4 = field f i 2 ++ field f (i + 2) 2 := by
    rw [field, field, field, ← List.drop_drop]
    exact List.take_add (i := 2) (j := 2)
  rw [hsplit, field_pair (by omega), field_pair (by omega)]
  rfl

theorem toNat_crc (b0 b1 b2 b3 : Byte) (w : Word32) : leBytes w = [b0, b1, b2, b3] ↔
    w.toNat = b0.toNat + 256 * b1.toNat + 65536 * b2.toNat + 16777216 * b3.toNat := by
  have h0 := b0.isLt
  have h1 := b1.isLt
  have h2 := b2.isLt
  have h3 := b3.isLt
  have hw := w.isLt
  simp only [leBytes, List.cons.injEq, and_true, ← BitVec.toNat_inj, BitVec.toNat_setWidth, BitVec.toNat_ushiftRight,
    Nat.shiftRight_eq_div_pow]
  omega

theorem crcGood_iff (f : Sys2Proof.Frame) : crcGood f = true ↔ ∃ (rest : List Byte) (b0 b1 b2 b3 : Byte), f = rest ++ [b0, b1, b2, b3]
    ∧ (checkValue rest).toNat = b0.toNat + 256 * b1.toNat + 65536 * b2.toNat + 16777216 * b3.toNat := by
  simp only [crcGood, beq_iff_eq, ← toNat_crc]
  constructor
  · intro h
    refine ⟨f.take (f.length - 4), _, _, _, _, ?_, rfl⟩
    exact (List.take_append_drop _ f).symm.trans (congrArg (f.take (f.length - 4) ++ ·) h)
  · rintro ⟨rest, b0, b1, b2, b3, rfl, h⟩
    simpa using h.symm

theorem crcByte_eq (reg : Word32) (b : Byte) : crcByte reg b = [0, 1, 2, 3, 4, 5, 6, 7].foldl
    (fun (r : Word32) i => if b.getLsbD i = r.getLsbD 0 then r >>> 1 else (r >>> 1) ^^^ 0xEDB88320) reg := by
  have hbit (r : Word32) (bit : Bool) : crcBit r bit = if bit = r.getLsbD 0 then r >>> 1 else (r >>> 1) ^^^ 0xEDB88320 :=
    ite_congr (propext (beq_iff_eq.trans eq_comm)) (fun _ => rfl) (fun _ => rfl)
  simp only [crcByte, hbit]

theorem checkValue_eq (bytes : List Byte) : checkValue bytes = ~~~(bytes.foldl
    (fun (reg : Word32) (b : Byte) => [0, 1, 2, 3, 4, 5, 6, 7].foldl
      (fun (r : Word32) i => if b.getLsbD i = r.getLsbD 0 then r >>> 1 else (r >>> 1) ^^^ 0xEDB88320) reg) 0xFFFFFFFF) := by
  simp only [checkValue, funext fun r => funext (crcByte_eq r)]

/-! ## BURST_DESC and FRAME_ARRIVAL (R25 to R27, R152) -/

theorem offerDescriptor_eq (f : Sys2Proof.Frame) (e : Echo) : offerDescriptor f e =
    if f.length ≠ 128 then
      { e with counters := { e.counters with malformed := min 65535 (e.counters.malformed + 1) } }
    else if e.queue.length < 16 then
      { e with
        queue := e.queue ++ [descriptorOf f]
        counters := { e.counters with accepted := min 65535 (e.counters.accepted + 1) } }
    else { e with counters := { e.counters with notAnalysed := min 65535 (e.counters.notAnalysed + 1) } } := rfl

theorem receiveDescriptor_eq {f : Sys2Proof.Frame} {s : State} (harrives : arrives .nodeSide f s.link = true)
    (hkind : headerKind f = 0x41) : receiveDescriptor f s =
      { arrive .nodeSide f false s with
        echo := if crcGood f = false then s.echo else offerDescriptor f s.echo } := by
  rw [receiveDescriptor, if_pos ⟨harrives, hkind⟩]
  cases crcGood f <;> rfl

theorem descriptorOf_spec {f : Sys2Proof.Frame} (hlength : f.length = 128) :
    let b := fun i => (byteAt f i).toNat
    let signed := fun i => if b i < 128 then (b i * 256 + b (i + 1) : Int) else b i * 256 + b (i + 1) - 65536
    let d := descriptorOf f
    d.station.toNat = 16777216 * b 6 + 65536 * b 7 + 256 * b 8 + b 9 ∧ d.channel = b 10
      ∧ d.taps.length = 24 ∧ ∀ j, j < 24 → d.taps[j]? = some (signed (18 + 4 * j), signed (20 + 4 * j)) := by
  intro b signed d
  have hsigned (i : Nat) (hi : i + 1 < f.length) : beInt16 (field f i 2) = signed i := by
    rw [field_pair hi, beInt16_pair]
    simp only [signed, b]
    split <;> omega
  refine ⟨?_, rfl, ?_, fun j hj => ?_⟩
  · have h6 := (byteAt f 6).isLt
    have h7 := (byteAt f 7).isLt
    have h8 := (byteAt f 8).isLt
    have h9 := (byteAt f 9).isLt
    simp only [d, descriptorOf, field_four (i := 6) (show 6 + 3 < f.length by omega), b]
    simp [beNat]
    omega
  · simp [d, descriptorOf]
  · simp only [d, descriptorOf, List.getElem?_map, List.getElem?_range hj, Option.map_some,
      hsigned (18 + 4 * j) (by omega), hsigned (20 + 4 * j) (by omega)]

/-- Settles O30: the descriptor frame, every other frame, and what the words of an arrival say. -/
theorem frameArrivals : Obligations.FrameArrivals := by
  refine ⟨fun f s hquiet harrives hkind => ?_, fun lane f s hquiet harrives hother => ?_, hasOwnRow_iff, arrives_iff,
    fun x r => wholeAt_of_some, crcGood_iff, checkValue_eq, fun f => descriptorOf_spec⟩
  · obtain ⟨hnode, hbeside, hthrough, hstore, htaken⟩ := arrive_nodeSide (f := f) (by rw [hkind]; decide) s
    exact ⟨_, (inTurn_of_quiet _ hquiet).trans (congrArg _ (receiveDescriptor_eq harrives hkind)), hnode, hbeside, hthrough, hstore,
      htaken, rfl, rfl⟩
  · obtain ⟨hbeside, htaken⟩ := arrive_beside lane f false s
    refine ⟨arrive lane f false s, (inTurn_of_quiet _ hquiet).trans (congrArg _ (if_pos ⟨harrives, hother⟩)), ?_, hbeside, htaken,
      arrive_through lane f false s, arrive_store lane f false s, rfl⟩
    rw [arrive_lane, countArrival_eq]

/-! ## SPECTRUM_SEG (R67, R70 to R77) -/

theorem roundAway_spec (num : Int) : 2 * (roundAway num 32768 * 32768 - num).natAbs ≤ 32768
    ∧ (2 * (roundAway num 32768 * 32768 - num).natAbs = 32768 → num.natAbs < (roundAway num 32768 * 32768).natAbs) := by
  unfold roundAway
  split <;> omega

theorem length_unclampedAll (table : List Correction) (raw : List Level) (i : Nat) :
    (unclampedAll table i raw).length = raw.length := by
  induction raw generalizing i with
  | nil => rfl
  | cons r rest ih => simp [unclampedAll, ih]

theorem getElem?_unclampedAll (table : List Correction) (raw : List Level) (i k : Nat) :
    (unclampedAll table k raw)[i]? =
      (raw[i]?).map (unclamped (table.getD ((k + i) / 32) { gain := 32768, offset := 0 })) := by
  induction raw generalizing i k with
  | nil => rfl
  | cons r rest ih =>
    cases i with
    | zero => simp [unclampedAll]
    | succ i => simp [unclampedAll, ih, Nat.add_assoc, Nat.add_comm 1]

theorem unclampedAll_spec (table : List Correction) (raw : List Level) : (unclampedAll table 0 raw).length = raw.length
    ∧ ∀ i r c, raw[i]? = some r → table[i / 32]? = some c →
        ∃ q : Int, (unclampedAll table 0 raw)[i]? = some (q + c.offset)
          ∧ 2 * (q * 32768 - r * c.gain).natAbs ≤ 32768
          ∧ (2 * (q * 32768 - r * c.gain).natAbs = 32768 → (r * (c.gain : Int)).natAbs < (q * 32768).natAbs) := by
  refine ⟨length_unclampedAll table raw 0, fun i r c hr hc => ⟨roundAway (r * (c.gain : Int)) 32768, ?_, roundAway_spec _⟩⟩
  rw [getElem?_unclampedAll, hr, Nat.zero_add, List.getD_eq_getElem?_getD, hc]
  rfl

theorem segmentLevels_spec (f : Sys2Proof.Frame) : (segmentLevels f).length = 256
    ∧ ∀ i, i < 256 → (segmentLevels f)[i]? = some (beInt16 (field f (10 + 2 * i) 2)) :=
  ⟨by simp [segmentLevels], fun i hi => by simp [segmentLevels, hi]⟩

/-- The blocks and fields that a hand-off does not reach (R86, R91). -/
theorem handOff_frame (n : Nat) (levels : List Level) (s : State) :
    let t := handOff n levels s
    { t with bands := s.bands, search := s.search, reports := s.reports, tlm := s.tlm, tally := s.tally } = s
      ∧ { t.tlm with searchRequest := s.tlm.searchRequest } = s.tlm
      ∧ { t.tally with records := s.tally.records } = s.tally ∧ { t.reports with queue := s.reports.queue } = s.reports := by
  intro t
  obtain ⟨hclocks, hlink, hsweep, -, hmap, hecho, hmgmt, himage, hpending, htlm, htally, hslots, halarms⟩ :=
    handOff_touches n levels s
  refine ⟨?_, ?_, ?_, ?_⟩
  · simp only [t, hclocks, hlink, hsweep, hmap, hecho, hmgmt, himage, hpending]
  · rw [htlm]
  · rw [htally]
  · simp only [t, hslots, halarms]

/-- A completed sweep handed to band watch (R72, R77). -/
theorem completeSweep_eq (n : Nat) (raw : List Level) (s : State) : completeSweep n raw s =
    let u := unclampedAll s.sweep.corrections 0 raw
    let clamps := (u.filter (fun x => decide (x < -1000) || decide (1000 < x))).length
    handOff n (u.map (fun x => max (-1000) (min 1000 x)))
      { s with sweep := { s.sweep with
          assembly := .idle, complete := min 65535 (s.sweep.complete + 1)
          clamped := if clamps = 0 then s.sweep.clamped else min 65535 (s.sweep.clamped + 1)
          latest := some { sweep := n, time := s.clocks.plantTime, clampCount := clamps } } } := by
  have hclamped (u : List Level) (a b : Nat) : (if 1 ≤ (u.filter isClamped).length then a else b) =
      if (u.filter isClamped).length = 0 then b else a := by split <;> split <;> omega
  unfold completeSweep
  simp only [hclamped]
  rfl

theorem takeSegment_of_last {f : Sys2Proof.Frame} {s : State} {s0 : Nat} {got : List Level} (hcrc : crcGood f = true)
    (hlength : f.length = 528) (hindex : (byteAt f 8).toNat = 3) (hassembly : s.sweep.assembly = .assembling s0 3 got)
    (hn : beNat (field f 6 2) = s0) : takeSegment f s = completeSweep s0 (got ++ segmentLevels f) s := by
  rw [takeSegment, if_pos hcrc, if_pos ⟨hlength, by omega⟩, goodSegment, hindex, if_neg (by decide), hassembly, hn]
  simp

/-- The sweep block after a segment that completes no sweep (R69 to R73). -/
def sweepAfter (f : Sys2Proof.Frame) (w : Sweep) : Sweep :=
  let index := (byteAt f 8).toNat
  let n := beNat (field f 6 2)
  if crcGood f = false then discardAssembly .badCrc w
  else if f.length ≠ 528 ∨ 3 < index then { discardAssembly .malformed w with malformed := min 65535 (w.malformed + 1) }
  else if index = 0 then { discardAssembly .restarted w with assembly := .assembling n 1 (segmentLevels f) }
  else
    match w.assembly with
    | .idle => { w with orphan := min 65535 (w.orphan + 1) }
    | .assembling s0 expected got =>
      if index ≠ expected then discardAssembly .outOfOrder w
      else if n ≠ s0 then discardAssembly .wrongSweep w
      else { w with assembly := .assembling s0 (index + 1) (got ++ segmentLevels f) }

theorem takeSegment_of_not_last {f : Sys2Proof.Frame} {s : State}
    (hlast : ¬ ∃ s0 got, crcGood f = true ∧ f.length = 528 ∧ (byteAt f 8).toNat = 3 ∧ s.sweep.assembly = .assembling s0 3 got
      ∧ beNat (field f 6 2) = s0) : takeSegment f s = { s with sweep := sweepAfter f s.sweep } := by
  unfold takeSegment sweepAfter
  cases hcrc : crcGood f with
  | false => rfl
  | true =>
    simp only [if_true, Bool.true_eq_false, if_false]
    by_cases hshape : f.length = 528 ∧ (byteAt f 8).toNat ≤ 3
    · rw [if_pos hshape, if_neg (by omega), goodSegment]
      by_cases hfirst : (byteAt f 8).toNat = 0
      · rw [if_pos hfirst, if_pos hfirst]
      · rw [if_neg hfirst, if_neg hfirst]
        cases hassembly : s.sweep.assembly with
        | idle =>
          exact congrArg (fun a => { s with sweep := { s.sweep with assembly := a, orphan := bump s.sweep.orphan } }) hassembly
        | assembling s0 expected got =>
          dsimp only
          by_cases hexpected : (byteAt f 8).toNat ≠ expected
          · rw [if_pos hexpected, if_pos hexpected]
          by_cases hsweep : beNat (field f 6 2) ≠ s0
          · rw [if_neg hexpected, if_pos hsweep, if_neg hexpected, if_pos hsweep]
          have hnot3 : (byteAt f 8).toNat ≠ 3 := fun h3 =>
            hlast ⟨s0, got, hcrc, hshape.1, h3, by rw [hassembly, ← h3, Classical.not_not.mp hexpected], Classical.not_not.mp hsweep⟩
          rw [if_neg hexpected, if_neg hsweep, if_neg hexpected, if_neg hsweep, if_neg hnot3]
    · rw [if_neg hshape, if_pos (by omega), malformedSegment]
      rfl

theorem sweepAfter_eq (f : Sys2Proof.Frame) (w : Sweep) : sweepAfter f w =
    (let index := (byteAt f 8).toNat
     let n := beNat (field f 6 2)
     let dropped := fun why => if w.assembly = .idle then w
       else { w with assembly := .idle, incomplete := min 65535 (w.incomplete + 1), lastDiscard := some why }
     if crcGood f = false then dropped .badCrc
     else if f.length ≠ 528 ∨ 3 < index then { dropped .malformed with malformed := min 65535 (w.malformed + 1) }
     else if index = 0 then { dropped .restarted with assembly := .assembling n 1 (segmentLevels f) }
     else
       match w.assembly with
       | .idle => { w with orphan := min 65535 (w.orphan + 1) }
       | .assembling s0 expected got =>
         if index ≠ expected then dropped .outOfOrder
         else if n ≠ s0 then dropped .wrongSweep
         else { w with assembly := .assembling s0 (index + 1) (got ++ segmentLevels f) }) := by
  simp only [sweepAfter, discardAssembly_eq]

/-- Settles O31: the segment that completes a sweep, every other, and the words of the correction. -/
theorem spectrumSegment : Obligations.SpectrumSegment := by
  refine ⟨fun f s hquiet harrives hkind => ?_, handOff_frame, segmentLevels_spec, fun hi lo => ⟨beNat_pair hi lo, beInt16_pair hi lo⟩,
    unclampedAll_spec⟩
  intro index n received
  have htake : exec (.spectrumSeg f) s = .next (takeSegment f (arrive .nodeSide f false s)) :=
    (inTurn_of_quiet _ hquiet).trans (congrArg _ (if_pos ⟨harrives, hkind⟩))
  have hreceived := arrive_nodeSide (f := f) (by rw [hkind]; decide) s
  refine ⟨fun s0 got hcrc hlength hindex hassembly hn => ?_, fun hlast => ?_⟩
  · have hlast := takeSegment_of_last (s := arrive .nodeSide f false s) hcrc hlength hindex hassembly hn
    exact ⟨_, htake.trans (congrArg _ (hlast.trans (completeSweep_eq _ _ _))), hreceived, rfl, rfl⟩
  · refine ⟨_, htake.trans (congrArg _ (takeSegment_of_not_last (s := arrive .nodeSide f false s) hlast)), hreceived, ?_, rfl⟩
    exact sweepAfter_eq f s.sweep

/-! ## MGMT_REQ (R161, R167) -/

/-- Settles O32: the request is counted, stored as taken, and handed to management. -/
theorem managementRequestTaken : Obligations.ManagementRequestTaken := by
  intro f b s hquiet harrives hkind hcrc haddress hfits
  have haddressed : addressedToPart f s = true := (hasOwnRow_iff .hubSide f s).mpr ⟨hkind, hcrc, haddress⟩
  obtain ⟨hbeside, htaken⟩ := arrive_beside .hubSide f true s
  refine ⟨_, (inTurn_of_quiet _ hquiet).trans (congrArg _ (if_pos ⟨harrives, haddressed, hfits⟩)), ?_, hbeside, ?_, ?_, ?_, rfl, rfl⟩
  · exact (arrive_lane .hubSide f true s).trans (countArrival_eq f s.link.hub)
  · exact (arrive_through .hubSide f true s).trans (if_neg (fun h => nomatch h.2))
  · exact (arrive_store .hubSide f true s).trans (if_pos ⟨by rw [hkind]; decide, rfl⟩)
  · exact congrArg bump htaken

end Sys2Proof.Machine
end

section
/-! The two transmitters' choices (O33, O34). -/

namespace Sys2Proof.Machine

/-! ## The stores and what is sent (R147, R155, R158, R160) -/

theorem arriving_eq (x : RxLane) (now : Nat) : arriving x now =
    match x.rx with
    | some r => if headerKind r.header = 0x00 then 0 else min (headerLength r.header) (now - r.start)
    | none => 0 := by
  unfold arriving
  cases x.rx <;> rfl

theorem occupancy_eq (l : Link) : occupancy l =
    (match l.hubTx.sending with
     | .through _ => l.hubTx.endsAt - l.byteTime
     | _ => 0)
    + (l.through.map List.length).sum
    + (match l.node.rx with
       | some r => if headerKind r.header = 0x00 then 0 else min (headerLength r.header) (l.byteTime - r.start)
       | none => 0) := by
  rw [occupancy, arriving_eq, hubLeaving]
  cases l.hubTx.sending <;> rfl

theorem storeOccupancy_eq (l : Link) : storeOccupancy l =
    (match l.nodeTx.sending with
     | .fill _ => 0
     | _ => l.nodeTx.endsAt - l.byteTime)
    + (l.store.map (fun x => x.frame.length)).sum
    + (match l.hub.rx with
       | some r => if headerKind r.header = 0x00 then 0 else min (headerLength r.header) (l.byteTime - r.start)
       | none => 0) := by
  rw [storeOccupancy, arriving_eq, nodeLeaving, waitingBytes, List.map_map]
  cases l.nodeTx.sending <;> rfl

theorem fillFrame_spec (address : Byte) : headerValid ((fillFrame address).take 6) = true ∧ headerKind (fillFrame address) = 0x00
    ∧ headerAddress (fillFrame address) = address ∧ (fillFrame address).drop 6 = List.replicate 10 0 :=
  ⟨headerValid_makeHeader kindFill address 1 (by decide) (by decide) (.inr rfl), rfl, rfl, rfl⟩

theorem length_bytes_le (b : Body) : b.bytes.length ≤ 544 := by
  unfold Body.bytes
  split
  · exact Nat.zero_le _
  · exact List.length_take_le _ _

theorem response_laidOut (r : Response) : LaidOut 0x62 r.address r.tag.toNat r.kind r.code.value r.body.bytes r.frame :=
  ownFrame_laidOut kindMgmtResp r.address r.tag r.kind r.code.value r.body.bytes (by decide) (length_bytes_le r.body)

theorem report_laidOut (r : Report) :
    LaidOut 0x63 r.address (r.slot % 65536) r.kind.code 0x00 ((Config.reportBytes r.body).take 544) r.frame := by
  have htag : (BitVec.ofNat 16 r.slot).toNat = r.slot % 65536 := BitVec.toNat_ofNat r.slot 16
  rw [← htag]
  exact ownFrame_laidOut kindReport r.address _ _ _ _ (by decide) (List.length_take_le _ _)

theorem arrivesBy_eq_false_iff (x : RxLane) (m : Nat) :
    (!arrivesBy x m) = true ↔ ∀ r, x.rx = some r → m < r.start + headerLength r.header := by
  unfold arrivesBy wholeAt
  cases x.rx <;> simp

/-! ## Report contents (R187) -/

theorem mem_bandLinesFrom (l : List BandSlot) (i : Nat) (y : BandLine) : y ∈ bandLinesFrom i l ↔
    ∃ k x, l[k]? = some x ∧ x.entry.enabled = true ∧ y = bandLine (i + k) x.live := by
  induction l generalizing i with
  | nil => simp [bandLinesFrom]
  | cons x rest ih =>
    have hlater : (∃ k z, (x :: rest)[k]? = some z ∧ z.entry.enabled = true ∧ y = bandLine (i + k) z.live) ↔
        (x.entry.enabled = true ∧ y = bandLine i x.live) ∨
          ∃ k z, rest[k]? = some z ∧ z.entry.enabled = true ∧ y = bandLine (i + 1 + k) z.live := by
      constructor
      · rintro ⟨k, z, hz, henabled, hy⟩
        cases k with
        | zero =>
          obtain rfl : x = z := by simpa using hz
          exact .inl ⟨henabled, hy⟩
        | succ k => exact .inr ⟨k, z, by simpa using hz, henabled, by rwa [Nat.add_assoc, Nat.add_comm 1]⟩
      · rintro (⟨henabled, hy⟩ | ⟨k, z, hz, henabled, hy⟩)
        · exact ⟨0, x, rfl, henabled, hy⟩
        · exact ⟨k + 1, z, by simpa using hz, henabled, by rwa [Nat.add_comm k, ← Nat.add_assoc]⟩
    rw [hlater, ← ih, bandLinesFrom]
    split
    · next henabled => simp [henabled]
    · next hdisabled => simp [hdisabled]

theorem bandLinesFrom_pairwise (l : List BandSlot) (i : Nat) : (bandLinesFrom i l).Pairwise (fun a b => a.band < b.band) := by
  induction l generalizing i with
  | nil => exact List.Pairwise.nil
  | cons x rest ih =>
    rw [bandLinesFrom]
    split
    · refine List.pairwise_cons.mpr ⟨fun y hy => ?_, ih (i + 1)⟩
      obtain ⟨k, z, -, -, rfl⟩ := (mem_bandLinesFrom rest (i + 1) y).mp hy
      show i < i + 1 + k
      omega
    · exact ih (i + 1)

theorem mem_bandLines (s : State) (y : BandLine) : y ∈ bandLinesFrom 0 s.bands.bands ↔
    ∃ x, s.bands.bands[y.band]? = some x ∧ x.entry.enabled = true
      ∧ y = { band := y.band, state := x.live.state, peak := x.live.peak, burst := x.live.burst
              longest := x.live.longest, hotCount := x.live.hotCount, lastCount := x.live.lastCount
              lastLongest := x.live.lastLongest, declares := x.live.declares } := by
  rw [mem_bandLinesFrom]
  constructor
  · rintro ⟨k, x, hx, henabled, rfl⟩
    rw [Nat.zero_add]
    exact ⟨x, hx, henabled, rfl⟩
  · rintro ⟨x, hx, henabled, hy⟩
    exact ⟨y.band, x, hx, henabled, by rw [Nat.zero_add]; exact hy⟩

theorem legViews_eq (s : State) : legViews s = s.tlm.entries.map (fun p =>
    { address := p.1, state := p.2.state, owner := p.2.owner
      seconds := p.2.deadline.map (fun d => (d - s.clocks.elapsed + 999) / 1000)
      reachable := p.2.reachable, timeouts := p.2.timeouts, failures := p.2.failures
      lastReply := p.2.lastReply, retained := p.2.retained }) := rfl

/-! ## HUB_TX_CHOICE (R156, R186) -/

/-- The link at the byte time of the hub side's choice. -/
def linkAtHubChoice (l : Link) : Link := notePeak (reachByte l.hubTx.endsAt l)

theorem sendReport_eq (q : QueuedSlot) (rest : List QueuedSlot) (x : ReportSlot) (l : Link) (s : State) :
    sendReport q rest x l s =
      let report : Report :=
        { address := s.mgmt.nodeAddress, slot := q.slot, kind := x.entry.kind,
          body := { time := s.clocks.plantTime, cause := q.cause, count := q.count,
                    content := reportContent { s with link := l } x.entry.kind } }
      { s with
        reports := { s.reports with
          queue := if x.entry.repeats = true ∧ x.entry.trigger = .now then enqueueSlot q.slot .now rest else rest
          slots := if x.entry.repeats = true then s.reports.slots
            else s.reports.slots.set q.slot { entry := { x.entry with enabled := false }, due := none } }
        link := notePeak { l with
          hubTx := { sending := .report report, endsAt := l.byteTime + report.frame.length }
          reportsSent := min 65535 (l.reportsSent + 1) } } := by
  unfold sendReport
  dsimp only
  by_cases hrepeats : x.entry.repeats = true
  · by_cases hnow : x.entry.trigger = .now
    · simp only [if_pos hrepeats, if_pos hnow, if_pos (And.intro hrepeats hnow)]
      rfl
    · simp only [if_pos hrepeats, if_neg hnow, if_neg (mt And.right hnow)]
      rfl
  · simp only [if_neg hrepeats, if_neg (mt And.left hrepeats)]
    rfl

section
variable {s : State}

theorem hubChoice_of_response {r : Response} {rest : List Response} (hlow : occupancy (linkAtHubChoice s.link) < 3072)
    (hr : s.mgmt.responses = r :: rest) : hubChoice s =
      { s with
        mgmt := { s.mgmt with responses := rest }
        link := hubSend (.response r) r.frame.length
          { linkAtHubChoice s.link with responsesSent := bump (linkAtHubChoice s.link).responsesSent } } := by
  unfold hubChoice
  simp only [hr]
  exact if_pos hlow

theorem hubChoice_of_report {q : QueuedSlot} {rest : List QueuedSlot} {x : ReportSlot}
    (hlow : occupancy (linkAtHubChoice s.link) < 3072) (hr : s.mgmt.responses = []) (hq : s.reports.queue = q :: rest)
    (hx : s.reports.slots[q.slot]? = some x) : hubChoice s = sendReport q rest x (linkAtHubChoice s.link) s := by
  have hslot : (if occupancy (notePeak (reachByte s.link.hubTx.endsAt s.link)) < highMark then s.reports.slots[q.slot]? else none)
      = some x := (if_pos hlow).trans hx
  unfold hubChoice
  simp only [hr, hq, hslot]
  rfl

/-- No own frame is chosen: at or above the high mark, or with none waiting. -/
def NoOwnFrame (s : State) : Prop :=
  3072 ≤ occupancy (linkAtHubChoice s.link) ∨ s.mgmt.responses = [] ∧ s.reports.queue = []

theorem hubChoice_of_through (h : NoOwnFrame s) {f : Sys2Proof.Frame} {rest : List Sys2Proof.Frame}
    (hf : (linkAtHubChoice s.link).through = f :: rest) : hubChoice s =
      { s with link := hubSend (.through f) f.length { linkAtHubChoice s.link with through := rest } } := by
  have hf' : (notePeak (reachByte s.link.hubTx.endsAt s.link)).through = f :: rest := hf
  unfold hubChoice
  obtain hhigh | ⟨hr, hq⟩ := h
  · have hnot : ¬ occupancy (notePeak (reachByte s.link.hubTx.endsAt s.link)) < highMark := Nat.not_lt.mpr hhigh
    cases s.mgmt.responses with
    | nil => cases s.reports.queue <;> simp only [hf', if_neg hnot] <;> rfl
    | cons r responses => simp only [hf', if_neg hnot]; rfl
  · simp only [hr, hq, hf']
    rfl

theorem hubChoice_of_empty (h : NoOwnFrame s) (hf : (linkAtHubChoice s.link).through = []) : hubChoice s =
    { s with link := hubSend (.fill s.mgmt.nodeAddress) 16 (linkAtHubChoice s.link) } := by
  have hf' : (notePeak (reachByte s.link.hubTx.endsAt s.link)).through = [] := hf
  unfold hubChoice
  obtain hhigh | ⟨hr, hq⟩ := h
  · have hnot : ¬ occupancy (notePeak (reachByte s.link.hubTx.endsAt s.link)) < highMark := Nat.not_lt.mpr hhigh
    cases s.mgmt.responses with
    | nil => cases s.reports.queue <;> simp only [hf', if_neg hnot] <;> rfl
    | cons r responses => simp only [hf', if_neg hnot]; rfl
  · simp only [hr, hq, hf']
    rfl

end

/-- Settles O33: the choice by what waits, what is sent, and what a report carries. -/
theorem hubTransmitterChoice : Obligations.HubTransmitterChoice := by
  refine ⟨fun s hquiet hchooses => ?_, fun l => ?_, fun l => ⟨rfl, rfl⟩, occupancy_eq, fun r r' f address => ?_, fun s => ?_⟩
  · have hchoice : exec .hubTxChoice s = .next (hubChoice s) := (inTurn_of_quiet _ hquiet).trans (congrArg _ (if_pos hchooses))
    rw [hchoice]
    refine ⟨fun r rest hlow hr => congrArg _ (hubChoice_of_response hlow hr), fun q rest x hlow hr hq hx => ?_,
      fun f rest hnone hf => congrArg _ (hubChoice_of_through hnone hf),
      fun hnone hf => congrArg _ (hubChoice_of_empty hnone hf)⟩
    rw [hubChoice_of_report hlow hr hq hx, sendReport_eq]
    rfl
  · rw [hubChooses, Bool.and_eq_true, arrivesBy_eq_false_iff]
  · obtain ⟨hvalid, hkind, haddress, hrest⟩ := fillFrame_spec address
    exact ⟨rfl, hvalid, hkind, haddress, hrest,
      ⟨r.body.bytes, length_bytes_le r.body, fun hempty => if_pos hempty, response_laidOut r, rfl⟩,
      ⟨_, List.length_take_le _ _, report_laidOut r', rfl⟩⟩
  · exact ⟨⟨_, rfl, bandLinesFrom_pairwise _ 0, mem_bandLines s⟩, rfl, rfl, ⟨_, rfl, rfl⟩, rfl⟩

/-! ## NODE_TX_CHOICE (R160) -/

theorem nodeChoice_eq (s : State) : nodeChoice s =
    let l := notePeak (reachByte s.link.nodeTx.endsAt s.link)
    { s with link :=
        match s.link.store with
        | [] => { l with nodeTx := { sending := .fill s.mgmt.nodeAddress, endsAt := l.byteTime + 16 } }
        | x :: rest =>
          { l with
            store := rest
            nodeTx := { sending := if x.taken then .fills (x.frame.length / 16) s.mgmt.nodeAddress else .frame x.frame
                        endsAt := l.byteTime + x.frame.length } } } := by
  unfold nodeChoice
  dsimp only
  split
  · next x rest hstore =>
    have hstore : s.link.store = x :: rest := hstore
    simp only [hstore]
    cases x.taken <;> rfl
  · next hstore =>
    have hstore : s.link.store = [] := hstore
    simp only [hstore]
    rfl

/-- Settles O34: the head of the store, what is sent, and what the store holds. -/
theorem nodeTransmitterChoice : Obligations.NodeTransmitterChoice := by
  refine ⟨fun s hquiet hchooses => ?_, fun l => ?_, fun f count address => ⟨rfl, rfl, fillFrame_spec address⟩, storeOccupancy_eq⟩
  · refine (inTurn_of_quiet _ hquiet).trans ?_
    rw [if_pos hchooses]
    exact congrArg Host.Outcome.next (nodeChoice_eq s)
  · rw [nodeChooses, Bool.and_eq_true, arrivesBy_eq_false_iff]

end Sys2Proof.Machine
end

section
/-! The timers that restart themselves, and echo analysis (O35 to O38). -/

namespace Sys2Proof.Machine

/-! ## Timers (R60, R94, R153, R184) -/

theorem bandIntervalExpiry_eq {s : State} {due : Nat} (hdue : s.bands.intervalDue = some due) : bandIntervalExpiry s =
    let now := max s.clocks.elapsed due
    { s with
      clocks := { s.clocks with elapsed := now }
      bands :=
        { bands := s.bands.bands.map (fun x =>
            { x with live := { x.live with lastCount := x.live.hotCount, lastLongest := x.live.longest,
                                           hotCount := 0, longest := 0 } })
          lastTransfer := some s.clocks.plantTime
          intervalDue := if s.mgmt.settings.mode = .auto then some (now + s.mgmt.settings.interval * 1000) else none } } := by
  unfold bandIntervalExpiry
  simp only [hdue, intervalStart_eq]
  rfl

theorem timerBefore_eq_false_iff (slots : List ReportSlot) (n due : Nat) : timerBefore slots n due = false ↔
    ∀ (m d : Nat) (y : ReportSlot), slots[m]? = some y → y.due = some d → due < d ∨ (due = d ∧ n ≤ m) := by
  rw [timerBefore, List.any_eq_false]
  constructor
  · intro h m d y hy hd
    have hm := h m (List.mem_range.mpr (index_lt hy))
    rw [hy, Option.bind_some, hd] at hm
    simp only [Option.any_some, Bool.or_eq_true, Bool.and_eq_true, decide_eq_true_eq] at hm
    omega
  · intro h m hm hbefore
    rw [Option.any_eq_true] at hbefore
    obtain ⟨d, hd, htest⟩ := hbefore
    obtain ⟨y, hy, hdue⟩ := Option.bind_eq_some_iff.mp hd
    have := h m d y hy hdue
    simp only [Bool.or_eq_true, Bool.and_eq_true, decide_eq_true_eq] at htest
    omega

theorem periodExpiry_eq {s : State} {n due p : Nat} {x : ReportSlot} (hx : s.reports.slots[n]? = some x) (hdue : x.due = some due)
    (hturn : timerBefore s.reports.slots n due = false) (henabled : x.entry.enabled = true)
    (htrigger : x.entry.trigger = .periodic) (hperiod : x.entry.period = some p) : periodExpiry n s =
      let now := max s.clocks.elapsed due
      { s with
        clocks := { s.clocks with elapsed := now }
        reports := { s.reports with
          slots := s.reports.slots.set n { x with due := some (now + p * 1000) }
          queue := enqueueSlot n .periodic s.reports.queue } } := by
  have hstart (now : Nat) : periodStart now x.entry = some (now + p * 1000) := by
    rw [periodStart_eq, if_pos ⟨henabled, htrigger⟩, hperiod]
    rfl
  unfold periodExpiry
  simp only [hx, hdue, hturn, Bool.false_eq_true, if_false, triggerSlot, reports_reach, henabled, if_true, hstart]
  rfl

/-- Settles O35: each timer's expiry, the timer started again with the span in force. -/
theorem timerExpiries : Obligations.TimerExpiries := by
  refine ⟨fun s hquiet => inTurn_of_quiet _ hquiet, fun s hquiet => inTurn_of_quiet _ hquiet, fun due s hquiet hdue => ?_,
    fun n due p x s hquiet hx hdue hturn henabled htrigger hperiod => ?_⟩
  · exact (inTurn_of_quiet _ hquiet).trans (congrArg _ (bandIntervalExpiry_eq hdue))
  · exact (inTurn_of_quiet _ hquiet).trans (congrArg _
      (periodExpiry_eq hx hdue ((timerBefore_eq_false_iff _ _ _).mpr hturn) henabled htrigger hperiod))

/-! ## ANALYSIS_BEGIN (R28 to R30) -/

theorem suppressed_iff (s : State) (tap : Nat) : suppressed s tap = true ↔
    ∃ g ∈ pathOf s.map.elements tap, legOf s.map.elements g ≠ 0
      ∧ ∃ e, tableGet s.tlm.entries (legOf s.map.elements g) = some e ∧ e.state ≠ .pass := by
  simp [suppressed, carriesLeg, TrackEntry.busy, Option.any_eq_true]

theorem analysisStage_eq (d : Descriptor) (s : State) : analysisStage d (s.echo.channels[d.channel]?) s =
    if s.map.state ≠ .ready then .fixed .mapNotReady
    else if (s.echo.channels[d.channel]?).map (·.enabled) ≠ some true then .fixed .channelOff
    else
      match (s.map.attachments.find? (fun p => p.2.station == d.station)).filter
          (fun p => p.2.validity == .valid), s.echo.channels[d.channel]? with
      | none, _ => .fixed .unknownStation
      | _, none => .fixed .channelOff
      | some (i, a), some c =>
        if suppressed s a.element then .fixed .suppressed
        else if eqInvalid (energies d.taps) then .fixed .eqInvalid
        else
          match echoTap (energies d.taps) c.threshold with
          | none => .fixed .clean
          | some k => .echo i a.element a.port (echoFigures (energies d.taps) k c.rate.multiplier) := by
  unfold analysisStage
  by_cases hready : s.map.state ≠ .ready
  · rw [if_pos hready, if_pos hready]
  rw [if_neg hready, if_neg hready]
  cases s.echo.channels[d.channel]? with
  | none => rfl
  | some c =>
    cases henabled : c.enabled with
    | false => simp [Option.filter_some, henabled]
    | true =>
      simp only [Option.filter_some, henabled, if_true, Option.map_some, ne_eq, not_true_eq_false, if_false, indexOfStation]
      cases (s.map.attachments.find? (fun p => p.2.station == d.station)).filter (fun p => p.2.validity == .valid) <;> rfl

theorem beginAnalysis_eq {d : Descriptor} {rest : List Descriptor} {s : State} (hqueue : s.echo.queue = d :: rest)
    (hnone : s.echo.analysis = none) : beginAnalysis s =
      { s with echo := { s.echo with
          analysis := some
            { taken := s.echo.channels[d.channel]?, mapLeft := false
              stage := analysisStage d (s.echo.channels[d.channel]?) s } } } := by
  simp only [beginAnalysis, hqueue, hnone]

/-- Settles O36: the first condition that holds fixes the outcome. -/
theorem analysisBegin : Obligations.AnalysisBegin := by
  refine ⟨fun d rest s hquiet hqueue hnone => ?_, ⟨rfl, rfl, rfl⟩, suppressed_iff⟩
  refine (inTurn_of_quiet _ hquiet).trans (congrArg _ ((beginAnalysis_eq hqueue hnone).trans ?_))
  exact congrArg (fun stage => { s with echo := { s.echo with
    analysis := some { taken := s.echo.channels[d.channel]?, mapLeft := false, stage := stage } } }) (analysisStage_eq d s)

/-! ## ANALYSIS_COMPLETION (R28, R31, R32, R42) -/

theorem castVotes_echo (b : Ballot) (keys : List Key) (s : State) : (castVotes b keys s).echo = s.echo := rfl

theorem completeAnalysis_of_fixed {s : State} {a : Analysis} {d : Descriptor} {rest : List Descriptor} {o : AnalysisOutcome}
    (ha : s.echo.analysis = some a) (hqueue : s.echo.queue = d :: rest) (ho : a.stage = .fixed o) :
    completeAnalysis s =
      { s with echo := { s.echo with queue := rest, analysis := none, counters := countOutcome o s.echo.counters } } := by
  unfold completeAnalysis
  simp only [ha, hqueue, ho, finishAnalysis, List.tail_cons]

section
variable {s : State} {a : Analysis} {d : Descriptor} {rest : List Descriptor} {i e p : Nat} {fig : EchoFigures}
  (ha : s.echo.analysis = some a) (hqueue : s.echo.queue = d :: rest) (hstage : a.stage = .echo i e p fig)
include ha hqueue hstage

theorem completeAnalysis_of_inl {o : AnalysisOutcome} (ho : handOffCheck a d.station i e p s = .inl o) :
    completeAnalysis s =
      { s with echo := { s.echo with queue := rest, analysis := none, counters := countOutcome o s.echo.counters } } := by
  unfold completeAnalysis
  simp only [ha, hqueue, hstage, ho, finishAnalysis, List.tail_cons]

theorem completeAnalysis_of_inr {drop : Nat} (hdrop : handOffCheck a d.station i e p s = .inr drop) :
    completeAnalysis s =
      let placed := place s.map.elements e drop s.mgmt.settings.window fig.time
      let voted := castVotes
        { index := i, ratio := fig.ratio, time := s.clocks.plantTime, promote := s.mgmt.settings.promote } placed.2 s
      { voted with echo :=
          { s.echo with
            queue := rest, analysis := none
            counters := countOutcome (.result placed.1) s.echo.counters
            latest := some { station := d.station, channel := d.channel, figures := fig, result := placed.1 } } } := by
  unfold completeAnalysis
  simp only [ha, hqueue, hstage, hdrop, finishAnalysis, castVotes_echo, List.tail_cons]

end

/-- What the attachment entry of an echo must still say at the hand-off (R31). -/
def stillFits (station : Word32) (element port : Nat) (x : Attachment) : Bool :=
  x.station == station && x.validity == .valid && x.element == element && x.port == port

theorem stillFits_iff (station : Word32) (element port : Nat) (x : Attachment) : stillFits station element port x = true ↔
    x.station = station ∧ x.validity = .valid ∧ x.element = element ∧ x.port = port := by
  simp [stillFits, and_assoc]

section
variable {s : State} {a : Analysis} {station : Word32} {i e p : Nat}

theorem handOffCheck_of_left (hleft : a.mapLeft = true ∨ s.map.state ≠ .ready) :
    handOffCheck a station i e p s = .inl .mapNotReady := if_pos hleft

theorem handOffCheck_of_ready (hstay : a.mapLeft = false) (hready : s.map.state = .ready) : handOffCheck a station i e p s =
    match (tableGet s.map.attachments i).filter (stillFits station e p) with
    | none => .inl .unknownStation
    | some x => if suppressed s x.element then .inl .suppressed else .inr x.drop := by
  unfold handOffCheck
  rw [if_neg (by simp [hstay, hready])]
  rfl

theorem handOffCheck_of_changed (hstay : a.mapLeft = false) (hready : s.map.state = .ready)
    (hchanged : ∀ x, tableGet s.map.attachments i = some x →
      ¬ (x.station = station ∧ x.validity = .valid ∧ x.element = e ∧ x.port = p)) :
    handOffCheck a station i e p s = .inl .unknownStation := by
  have hnone : (tableGet s.map.attachments i).filter (stillFits station e p) = none :=
    Option.filter_eq_none_iff.mpr fun x hx => (not_congr (stillFits_iff _ _ _ _)).mpr (hchanged x hx)
  rw [handOffCheck_of_ready hstay hready, hnone]

theorem handOffCheck_of_fits (hstay : a.mapLeft = false) (hready : s.map.state = .ready) {x : Attachment}
    (hx : tableGet s.map.attachments i = some x) (hfits : stillFits station e p x = true) :
    handOffCheck a station i e p s = if suppressed s e then .inl .suppressed else .inr x.drop := by
  obtain ⟨-, -, helement, -⟩ := (stillFits_iff _ _ _ _).mp hfits
  rw [handOffCheck_of_ready hstay hready, hx, Option.filter_some_pos hfits, ← helement]

end

/-- Settles O37: an outcome fixed at the beginning stands; an echo is examined again. -/
theorem analysisCompletion : Obligations.AnalysisCompletion := by
  refine ⟨fun c o => ?_, fun a d rest s hquiet ha hqueue => ?_⟩
  · cases o with
    | result r => cases r <;> rfl
    | _ => rfl
  have hexec : exec .analysisCompletion s = .next (completeAnalysis s) := inTurn_of_quiet _ hquiet
  rw [hexec]
  refine ⟨fun o ho => congrArg _ (completeAnalysis_of_fixed ha hqueue ho), fun i e p fig hstage hleft => ?_,
    fun i e p fig x hstage hstay hready hx hstation hvalid he hp hclear => ?_, fun i e p fig hstage hstay hready hchanged => ?_,
    fun i e p fig x hstage hstay hready hx hstation hvalid he hp hbusy => ?_⟩
  · exact congrArg _ (completeAnalysis_of_inl ha hqueue hstage (handOffCheck_of_left hleft))
  · refine congrArg _ (completeAnalysis_of_inr ha hqueue hstage ?_)
    rw [handOffCheck_of_fits hstay hready hx ((stillFits_iff _ _ _ _).mpr ⟨hstation, hvalid, he, hp⟩), hclear]
    rfl
  · exact congrArg _ (completeAnalysis_of_inl ha hqueue hstage (handOffCheck_of_changed hstay hready hchanged))
  · refine congrArg _ (completeAnalysis_of_inl ha hqueue hstage ?_)
    rw [handOffCheck_of_fits hstay hready hx ((stillFits_iff _ _ _ _).mpr ⟨hstation, hvalid, he, hp⟩), hbusy]
    rfl

end Sys2Proof.Machine
end

section
/-! The echo arithmetic (O38). -/

namespace Sys2Proof.Machine

/-! ## The best of a list -/

/-- One element more looked at in the search for the best of a list: a later one takes the place only when it is better. -/
def pickStep {α : Type} (better : α → α → Prop) [DecidableRel better] (best : Option α) (x : α) : Option α :=
  match best with
  | none => some x
  | some b => if better x b then some x else some b

/-- Induction over a list that grows at its end. -/
theorem appendInduction {α : Type} {motive : List α → Prop} (nil : motive [])
    (append_singleton : ∀ l x, motive l → motive (l ++ [x])) (l : List α) : motive l := by
  have hreverse : ∀ r : List α, motive r.reverse := by
    intro r
    induction r with
    | nil => exact nil
    | cons x r ih =>
      rw [List.reverse_cons]
      exact append_singleton _ x ih
  have hmotive := hreverse l.reverse
  rwa [List.reverse_reverse] at hmotive

/-- What the search for the best of a list finds: one that every earlier one gave way to or never met, and no later one beats. -/
theorem foldl_pickStep {α : Type} {better : α → α → Prop} [DecidableRel better] (irrefl : ∀ x, ¬ better x x)
    (trans' : ∀ {x y z}, better x y → better y z → better x z) (l : List α) :
    (l = [] ∧ l.foldl (pickStep better) none = none)
      ∨ ∃ b, l.foldl (pickStep better) none = some b ∧ b ∈ l ∧ ∀ x ∈ l, ¬ better x b := by
  induction l using appendInduction with
  | nil => exact .inl ⟨rfl, rfl⟩
  | append_singleton l x ih =>
    refine .inr ?_
    rw [List.foldl_append, List.foldl_cons, List.foldl_nil]
    obtain ⟨rfl, hfold⟩ | ⟨b, hfold, hb, hbest⟩ := ih
    · exact ⟨x, rfl, List.mem_singleton_self x, fun y hy => List.mem_singleton.mp hy ▸ irrefl x⟩
    · rw [hfold]
      by_cases hx : better x b
      · refine ⟨x, if_pos hx, by simp, fun y hy hyx => ?_⟩
        obtain hy | rfl := List.mem_append.mp hy |>.imp_right List.mem_singleton.mp
        · exact hbest y hy (trans' hyx hx)
        · exact irrefl y hyx
      · refine ⟨b, if_neg hx, List.mem_append_left _ hb, fun y hy => ?_⟩
        obtain hy | rfl := List.mem_append.mp hy |>.imp_right List.mem_singleton.mp
        · exact hbest y hy
        · exact hx

/-- In a rising list, where an element that beats no other gives way to every better one, the first of the best is found. -/
theorem foldl_pickStep_first {f : Nat → Int} {l : List Nat} (hl : l.Pairwise (· < ·)) {b : Nat}
    (h : l.foldl (pickStep (fun x y => f y < f x)) none = some b) : ∀ x ∈ l, x < b → f x < f b := by
  induction l using appendInduction generalizing b with
  | nil => cases h
  | append_singleton l x ih =>
    obtain ⟨hsorted, -, hbelow⟩ := List.pairwise_append.mp hl
    have hlast (y : Nat) (hy : y ∈ l) : y < x := hbelow y hy x (List.mem_singleton_self x)
    rw [List.foldl_append, List.foldl_cons, List.foldl_nil] at h
    obtain ⟨rfl, hfold⟩ | ⟨c, hfold, hc, hbest⟩ := foldl_pickStep (better := fun x y => f y < f x) (fun _ => Int.lt_irrefl _)
      (fun hxy hyz => Int.lt_trans hyz hxy) l
    · rw [hfold] at h
      cases h
      intro y hy hlt
      exact absurd (List.mem_singleton.mp hy ▸ hlt) (Nat.lt_irrefl _)
    · rw [hfold, pickStep] at h
      intro y hy hyb
      split at h
      · next hx =>
        cases h
        obtain hy | rfl := List.mem_append.mp hy |>.imp_right List.mem_singleton.mp
        · exact Int.lt_of_le_of_lt (Int.not_lt.mp (hbest y hy)) hx
        · exact absurd hyb (Nat.lt_irrefl _)
      · cases h
        obtain hy | rfl := List.mem_append.mp hy |>.imp_right List.mem_singleton.mp
        · exact ih hsorted hfold y hy hyb
        · exact absurd (hlast _ hc) (Nat.lt_asymm hyb)

/-! ## The echo tap (R35 to R37) -/

theorem energyAt_energies {taps : List (Int × Int)} {j : Nat} {i q : Int} (h : taps[j]? = some (i, q)) :
    energyAt (energies taps) j = i * i + q * q := by
  simp [energyAt, energies, List.getD_eq_getElem?_getD, h, energy]

theorem eqInvalid_iff (es : List Int) : eqInvalid es = true ↔
    energyAt es 8 = 0 ∨ ∃ j, j < 24 ∧ j ≠ 8 ∧ energyAt es 8 ≤ energyAt es j := by
  simp only [eqInvalid, Bool.or_eq_true, beq_iff_eq, List.any_eq_true, List.mem_range, Bool.and_eq_true, bne_iff_ne,
    decide_eq_true_eq]
  exact Iff.rfl

theorem postMain_pairwise : postMain.Pairwise (· < ·) := by decide

theorem mem_postMain (k : Nat) : k ∈ postMain ↔ 9 ≤ k ∧ k ≤ 23 := by
  simp only [postMain, List.mem_map, List.mem_range]
  exact ⟨fun ⟨i, hi, hk⟩ => by omega, fun ⟨h9, h23⟩ => ⟨k - 9, by omega, by omega⟩⟩

theorem mem_qualifying (es : List Int) (t k : Nat) : k ∈ postMain.filter (qualifies es t) ↔
    9 ≤ k ∧ k ≤ 23 ∧ t * energyAt es 8 ≤ energyAt es k * 65536 := by
  simp only [List.mem_filter, mem_postMain, qualifies, decide_eq_true_eq, and_assoc]
  exact Iff.rfl

theorem echoTap_eq (es : List Int) (t : Nat) : echoTap es t =
    (postMain.filter (qualifies es t)).foldl (pickStep (fun x y => energyAt es y < energyAt es x)) none :=
  congrArg (fun step => (postMain.filter (qualifies es t)).foldl step none)
    (funext fun best => funext fun k => by cases best <;> rfl)

theorem echoTap_spec {es : List Int} {t k : Nat} (h : echoTap es t = some k) : k ∈ postMain.filter (qualifies es t)
    ∧ ∀ j ∈ postMain.filter (qualifies es t), energyAt es j ≤ energyAt es k ∧ (j < k → energyAt es j < energyAt es k) := by
  rw [echoTap_eq] at h
  have hfirst := foldl_pickStep_first (postMain_pairwise.filter (qualifies es t)) h
  obtain ⟨-, hnone⟩ | ⟨b, hfold, hb, hbest⟩ := foldl_pickStep (better := fun x y => energyAt es y < energyAt es x)
    (fun _ => Int.lt_irrefl _) (fun hxy hyz => Int.lt_trans hyz hxy) (postMain.filter (qualifies es t))
  · rw [hnone] at h; cases h
  · obtain rfl : b = k := Option.some.inj (hfold.symm.trans h)
    exact ⟨hb, fun j hj => ⟨Int.not_lt.mp (hbest j hj), hfirst j hj⟩⟩

theorem echoTap_eq_some_iff (es : List Int) (t k : Nat) : echoTap es t = some k ↔
    k ∈ postMain.filter (qualifies es t)
      ∧ ∀ j ∈ postMain.filter (qualifies es t), energyAt es j ≤ energyAt es k ∧ (j < k → energyAt es j < energyAt es k) := by
  refine ⟨echoTap_spec, fun ⟨hk, hbest⟩ => ?_⟩
  cases hpick : echoTap es t with
  | none =>
    obtain ⟨hnil, -⟩ | ⟨b, hfold, -⟩ := foldl_pickStep (better := fun x y => energyAt es y < energyAt es x)
      (fun _ => Int.lt_irrefl _) (fun hxy hyz => Int.lt_trans hyz hxy) (postMain.filter (qualifies es t))
    · rw [hnil] at hk; cases hk
    · rw [echoTap_eq, hfold] at hpick; cases hpick
  | some b =>
    obtain ⟨hb, hbBest⟩ := echoTap_spec hpick
    obtain ⟨hle, hlt⟩ := hbest b hb
    obtain ⟨hle', hlt'⟩ := hbBest k hk
    obtain hbk | rfl | hkb := Nat.lt_trichotomy b k
    · exact absurd (hlt hbk) (Int.not_lt.mpr hle')
    · rfl
    · exact absurd (hlt' hkb) (Int.not_lt.mpr hle)

/-! ## The figures of an echo (R38 to R41) -/

theorem two_mul_mul (den q : Int) : 2 * den * q = 2 * (q * den) := by rw [Int.mul_assoc, Int.mul_comm den]

/-- Rounding to the nearest, ties away from zero, by its defining inequalities. -/
theorem roundAway_nearest (num : Int) {den : Int} (hden : 0 < den) : 2 * (roundAway num den * den - num).natAbs ≤ den.natAbs
    ∧ (2 * (roundAway num den * den - num).natAbs = den.natAbs → num.natAbs < (roundAway num den * den).natAbs) := by
  unfold roundAway
  split
  · have hdiv := Int.mul_ediv_add_emod (2 * num + den) (2 * den)
    have hlow := Int.emod_nonneg (2 * num + den) (b := 2 * den) (by omega)
    have hhigh := Int.emod_lt_of_pos (2 * num + den) (b := 2 * den) (by omega)
    have hprod : 2 * den * ((2 * num + den) / (2 * den)) = 2 * ((2 * num + den) / (2 * den) * den) :=
      two_mul_mul den _
    generalize (2 * num + den) / (2 * den) * den = x at *
    omega
  · have hdiv := Int.mul_ediv_add_emod (2 * -num + den) (2 * den)
    have hlow := Int.emod_nonneg (2 * -num + den) (b := 2 * den) (by omega)
    have hhigh := Int.emod_lt_of_pos (2 * -num + den) (b := 2 * den) (by omega)
    have hprod : 2 * den * ((2 * -num + den) / (2 * den)) = 2 * ((2 * -num + den) / (2 * den) * den) :=
      two_mul_mul den _
    have hneg : -((2 * -num + den) / (2 * den)) * den = -((2 * -num + den) / (2 * den) * den) := Int.neg_mul _ _
    rw [hneg]
    generalize (2 * -num + den) / (2 * den) * den = x at *
    omega

theorem roundHalfUp_spec (num : Int) : 512 * roundHalfUp num 256 ≤ 2 * num + 256
    ∧ 2 * num + 256 < 512 * roundHalfUp num 256 + 512 := by
  unfold roundHalfUp
  omega

theorem echoRatio_spec {es : List Int} (hnonneg : ∀ j, 0 ≤ energyAt es j) (k : Nat) :
    (echoRatio es k : Int) = min 65535 (energyAt es k * 65536 / energyAt es 8) := by
  have hquot : 0 ≤ energyAt es k * 65536 / energyAt es 8 :=
    Int.ediv_nonneg (Int.mul_nonneg (hnonneg k) (by decide)) (hnonneg 8)
  rw [echoRatio, mainEnergy]
  omega

theorem ite_nonneg {c : Prop} [Decidable c] {x : Int} (h : 0 ≤ x) : 0 ≤ if c then 0 else x := by
  split
  · exact Int.le_refl 0
  · exact h

/-- Settles O38: the echo tap, and each figure by its defining inequalities. -/
theorem echoArithmetic : Obligations.EchoArithmetic := by
  refine ⟨fun taps j i q => energyAt_energies, eqInvalid_iff, fun es t k => ?_, fun es k m h9 h23 hmain hnonneg hk => ?_⟩
  · rw [echoTap_eq_some_iff]
    simp only [mem_qualifying, and_assoc, and_imp]
  · intro f a c den num
    have ha : 0 ≤ a := ite_nonneg (hnonneg _)
    have hc : 0 ≤ c := ite_nonneg (hnonneg _)
    obtain ⟨hnear, htie⟩ := roundAway_nearest num (den := den) (by omega)
    exact ⟨rfl, echoRatio_spec hnonneg k, hnear, htie, rfl, roundHalfUp_spec _⟩

end Sys2Proof.Machine
end

section
/-! Placement and the votes (O39, O40). -/

namespace Sys2Proof.Machine

/-! ## The walk (R43, R44) -/

theorem pathOf_eq_cons (t : Table Element) (tap : Nat) : ∃ rest, pathOf t tap = tap :: rest := ⟨_, rfl⟩

theorem cumulatives_pathOf_zero (t : Table Element) (drop tap : Nat) : (cumulatives t drop (pathOf t tap))[0]? = some (tap, drop) := rfl

theorem getElem?_cumulatives_fst {t : Table Element} {c i e x : Nat} {l : List Nat} (h : (cumulatives t c l)[i]? = some (e, x)) :
    l[i]? = some e := by
  rw [← cumulatives_fst t l c, List.getElem?_map, h]
  rfl

/-- The cumulative delay of an element is the one before it and the delay between them. -/
theorem cumulatives_succ {t : Table Element} {l : List Nat} {c i e x e' x' : Nat} (h : (cumulatives t c l)[i]? = some (e, x))
    (h' : (cumulatives t c l)[i + 1]? = some (e', x')) : x' = x + ((tableGet t e).map (·.delay)).getD 0 := by
  induction l generalizing c i with
  | nil => cases h
  | cons a rest ih =>
    cases i with
    | zero =>
      obtain ⟨rfl, rfl⟩ : a = e ∧ c = x := by simpa [cumulatives] using h
      cases rest with
      | nil => cases h'
      | cons b later =>
        obtain ⟨-, rfl⟩ : b = e' ∧ c + ((tableGet t a).map (·.delay)).getD 0 = x' := by simpa [cumulatives] using h'
        rfl
    | succ i =>
      simp only [cumulatives, List.getElem?_cons_succ] at h h'
      exact ih h h'

/-- On the walk each element is followed by its parent, with the delay between them added. -/
theorem walk_succ {t : Table Element} {drop tap i e c e' c' : Nat}
    (h : (cumulatives t drop (pathOf t tap))[i]? = some (e, c)) (h' : (cumulatives t drop (pathOf t tap))[i + 1]? = some (e', c')) :
    (tableGet t e).bind (·.parent) = some e' ∧ some c' = (tableGet t e).map (fun x => c + x.delay) := by
  have hpath := getElem?_cumulatives_fst h'
  have hlength : i + 1 < 32 := Nat.lt_of_lt_of_le (index_lt hpath) (length_chainFrom_le t 32 tap)
  have hparent : (tableGet t e).bind (·.parent) = some e' :=
    (getElem?_chainFrom_succ t 32 tap hlength (getElem?_cumulatives_fst h)).symm.trans hpath
  have hdelay := cumulatives_succ h h'
  refine ⟨hparent, ?_⟩
  cases htable : tableGet t e with
  | none => rw [htable] at hparent; cases hparent
  | some x => rw [hdelay, htable]; rfl

/-- A chain that reaches an element without a parent ends there. -/
theorem getLast?_chainFrom {t : Table Element} {n e r : Nat} (hroot : (tableGet t r).bind (·.parent) = none)
    (h : r ∈ chainFrom t n e) : (chainFrom t n e).getLast? = some r := by
  induction n generalizing e with
  | zero => cases h
  | succ n ih =>
    unfold chainFrom at h ⊢
    obtain rfl | hrest := List.mem_cons.mp h
    · simp [hroot]
    · cases hp : (tableGet t e).bind (·.parent) with
      | none => simp [hp] at hrest
      | some p =>
        simp only [hp] at hrest ⊢
        rw [List.getLast?_cons, ih hrest]
        rfl

/-- In a valid map the path of a present element ends at element 0 (R12, checks 1 and 5). -/
theorem getLast?_pathOf_of_validate {t : Table Element} (hvalid : validate t = none) {tap : Nat} {e : Element}
    (he : tableGet t tap = some e) : (pathOf t tap).getLast? = some 0 := by
  have hroot : rootFault t = none := check_of_validate hvalid (c := (rootFault t, .rootInvalid)) (List.mem_of_getElem? (i := 0) rfl)
  have hdepth : lowest t (fun e _ => !(pathOf t e).contains 0) = none :=
    check_of_validate hvalid (c := (_, .depthExceeded)) (List.mem_of_getElem? (i := 4) rfl)
  have hzero : 0 ∈ pathOf t tap := by
    have hfind := List.find?_eq_none.mp (Option.map_eq_none_iff.mp hdepth) _ (mem_of_tableGet he)
    simpa using hfind
  refine getLast?_chainFrom ?_ hzero
  unfold rootFault at hroot
  cases h0 : tableGet t 0 with
  | none => rfl
  | some r =>
    rw [h0] at hroot
    simp only [ite_eq_left_iff, reduceCtorEq, imp_false, Classical.not_not] at hroot
    exact hroot.2

theorem getLast?_cumulatives_fst (t : Table Element) (c : Nat) (l : List Nat) :
    ((cumulatives t c l).getLast?).map Prod.fst = l.getLast? := by
  rw [← List.getLast?_map, cumulatives_fst]

/-! ## Placement (R45 to R48) -/

section
variable {t : Table Element} {tap drop window : Nat} {time : Int}

/-- The elements of a walk within the window of a time (R46). -/
def nearest (t : Table Element) (tap drop window : Nat) (time : Int) : List (Nat × Nat) :=
  (cumulatives t drop (pathOf t tap)).filter (fun p => decide (((p.2 : Int) - time).natAbs ≤ window))

theorem place_of_lt (h : time < (drop : Int) - window) : place t tap drop window time = (.drop, [(tap, .drop)]) := if_pos h

theorem place_of_near (h : (drop : Int) - window ≤ time) (hnear : nearest t tap drop window time ≠ []) :
    place t tap drop window time = (.placed, (nearest t tap drop window time).map (fun p => (p.1, .at))) := by
  unfold place
  rw [if_neg (Int.not_lt.mpr h)]
  change (match nearest t tap drop window time with | [] => _ | near => _) = _
  split
  · next hnil => exact absurd hnil hnear
  · rfl

theorem place_of_far (h : (drop : Int) - window ≤ time) (hnear : nearest t tap drop window time = []) :
    place t tap drop window time =
      if time < (rootCumulative (cumulatives t drop (pathOf t tap)) : Int) then
        (.span, ((spanElement (cumulatives t drop (pathOf t tap)) time).map (fun e => (e, Place.span))).toList)
      else (.beyond, []) := by
  unfold place
  rw [if_neg (Int.not_lt.mpr h)]
  change (match nearest t tap drop window time with | [] => _ | near => _) = _
  rw [hnear]

end

/-- The last element of a walk below a time, where every later one lies at or above a delay that the time does not reach. -/
theorem spanElement_eq {walk : List (Nat × Nat)} {time : Int} {i e c bound : Nat} (hi : walk[i]? = some (e, c)) (hc : (c : Int) < time)
    (hbound : time < bound) (hlater : ∀ (j x d : Nat), i < j → walk[j]? = some (x, d) → bound ≤ d) :
    spanElement walk time = some e := by
  have hlt := index_lt hi
  have hget : walk[i] = (e, c) := Option.some.inj ((List.getElem?_eq_getElem hlt).symm.trans hi)
  have hrest : (walk.drop (i + 1)).filter (fun p => decide ((p.2 : Int) < time)) = [] := by
    refine List.filter_eq_nil_iff.mpr fun p hp => ?_
    obtain ⟨k, hk⟩ := List.mem_iff_getElem?.mp hp
    rw [List.getElem?_drop] at hk
    have hd := hlater (i + 1 + k) p.1 p.2 (by omega) hk
    simp only [decide_eq_true_eq]
    omega
  have hsplit : walk = walk.take i ++ (e, c) :: walk.drop (i + 1) := by
    rw [← hget, ← List.drop_eq_getElem_cons hlt, List.take_append_drop]
  rw [spanElement, hsplit, List.filter_append, List.filter_cons_of_pos (by simpa using hc), hrest, List.getLast?_append]
  rfl

/-- A walk that goes on beyond an element ends at or above a delay that all later ones reach. -/
theorem lt_rootCumulative {walk : List (Nat × Nat)} {i e' c' bound : Nat} (hnext : walk[i + 1]? = some (e', c'))
    (hlater : ∀ (j x d : Nat), i < j → walk[j]? = some (x, d) → bound ≤ d) : bound ≤ rootCumulative walk := by
  have hlt := index_lt hnext
  have hlast : walk.getLast? = walk[walk.length - 1]? := List.getLast?_eq_getElem?
  have hsome : walk[walk.length - 1]? = some walk[walk.length - 1] := List.getElem?_eq_getElem (by omega)
  rw [rootCumulative, hlast, hsome]
  exact hlater (walk.length - 1) _ _ (by omega) hsome

/-- Settles O39: the walk, and the result by where the time falls among its delays. -/
theorem placement : Obligations.Placement := by
  intro t tap drop window time walk near
  refine ⟨cumulatives_pathOf_zero t drop tap, cumulatives_fst t _ drop, fun hvalid ⟨e, he⟩ => ?_,
    fun i e c h e' c' h' => walk_succ h h', place_of_lt, place_of_near, fun h hnear hbeyond => ?_,
    fun i e c e' c' h hnear hi hnext hc hc' hlater => ?_⟩
  · have hlast := (getLast?_cumulatives_fst t drop (pathOf t tap)).trans (getLast?_pathOf_of_validate hvalid he)
    obtain ⟨⟨z, c⟩, hz, rfl⟩ := Option.map_eq_some_iff.mp hlast
    exact ⟨c, hz⟩
  · rw [place_of_far h hnear, if_neg]
    obtain ⟨⟨e, c⟩, hlast⟩ : ∃ p, walk.getLast? = some p := ⟨_, List.getLast?_eq_some_getLast (by exact List.cons_ne_nil _ _)⟩
    have hc := hbeyond e c hlast
    have hroot : rootCumulative (cumulatives t drop (pathOf t tap)) = c := by
      rw [rootCumulative, show (cumulatives t drop (pathOf t tap)).getLast? = some (e, c) from hlast]
      rfl
    rw [hroot]
    exact Int.not_lt.mpr hc
  · have hroot := lt_rootCumulative hnext hlater
    rw [place_of_far h hnear, if_pos (Int.lt_of_lt_of_le hc' (Int.ofNat_le.mpr hroot)), spanElement_eq hi hc hc' hlater]
    rfl

/-! ## The victim (R53) -/

theorem lexLess_irrefl (l : List Nat) : lexLess l l = false := by
  induction l with
  | nil => rfl
  | cons a rest ih => simp [lexLess, ih]

theorem lexLess_trans {l m n : List Nat} (hlm : lexLess l m = true) (hmn : lexLess m n = true) : lexLess l n = true := by
  induction l generalizing m n with
  | nil => cases hlm
  | cons a l ih =>
    cases m with
    | nil => cases hlm
    | cons b m =>
      cases n with
      | nil => cases hmn
      | cons c n =>
        simp only [lexLess, Bool.or_eq_true, Bool.and_eq_true, decide_eq_true_eq] at *
        rcases hlm with hab | ⟨rfl, hlm⟩
        · rcases hmn with hbc | ⟨rfl, -⟩
          · exact .inl (Nat.lt_trans hab hbc)
          · exact .inl hab
        · rcases hmn with hac | ⟨rfl, hmn⟩
          · exact .inl hac
          · exact .inr ⟨rfl, ih hlm hmn⟩

/-- One record is the better victim of two (R53). -/
def betterVictim (p q : Nat × TallyRecord) : Prop := lexLess (victimKey p.2) (victimKey q.2) = true

/-- The records that may be replaced: those in WATCH that no vote of the placement has touched (R53, R56). -/
def candidates (records : Table TallyRecord) (touched : List Nat) : List (Nat × TallyRecord) :=
  records.filter (fun p => p.2.state == .watch && !touched.contains p.1)

theorem mem_candidates {records : Table TallyRecord} {touched : List Nat} {p : Nat × TallyRecord} :
    p ∈ candidates records touched ↔ p ∈ records ∧ p.2.state = .watch ∧ p.1 ∉ touched := by
  simp [candidates]

theorem victim_spec (records : Table TallyRecord) (touched : List Nat) :
    (candidates records touched = [] ∧ victim records touched = none)
      ∨ ∃ b, victim records touched = some b ∧ b ∈ candidates records touched
        ∧ ∀ x ∈ candidates records touched, ¬ betterVictim x b := by
  have hpick : victim records touched = (candidates records touched).foldl
      (pickStep (fun p q => lexLess (victimKey p.2) (victimKey q.2) = true)) none :=
    congrArg (fun step => (candidates records touched).foldl step none)
      (funext fun best => funext fun p => by cases best <;> rfl)
  rw [hpick]
  exact foldl_pickStep (better := fun p q : Nat × TallyRecord => lexLess (victimKey p.2) (victimKey q.2) = true)
    (fun x => by simp [lexLess_irrefl]) lexLess_trans _

/-! ## One vote (R50 to R54, R56) -/

/-- The record a vote makes where none holds its key. -/
def freshRecord (b : Ballot) (k : Key) : TallyRecord :=
  { element := k.1, place := k.2, votes := 1, voters := [b.index], state := stateFor b.promote [b.index],
    coincident := false, strongest := b.ratio, firstVote := b.time, lastVote := b.time }

theorem createIn_eq (b : Ballot) (k : Key) (slot : Nat) (p : Poll) : createIn b k slot p =
    { tally := { p.tally with records := tableSet p.tally.records slot (freshRecord b k) }
      touched := slot :: p.touched
      events := p.events ++ if stateFor b.promote [b.index] = .suspect then [.newSuspect] else [] } := by
  simp [createIn, evaluate, newRecord, freshRecord]

theorem voteFor_eq (b : Ballot) (slot : Nat) (r : TallyRecord) (p : Poll) : voteFor b slot r p =
    let joins := b.index ∉ r.voters ∧ r.voters.length < 8
    let voters := if joins then r.voters ++ [b.index] else r.voters
    let state := if joins then stateFor b.promote voters else r.state
    { tally := { p.tally with
        records := tableSet p.tally.records slot
          { r with votes := min 65535 (r.votes + 1), voters := voters, state := state, lastVote := b.time,
                   strongest := max r.strongest b.ratio } }
      touched := slot :: p.touched
      events := p.events ++ if joins ∧ r.state = .watch ∧ state = .suspect then [.newSuspect] else [] } := by
  have hstays : (r.voters.contains b.index || decide (8 ≤ r.voters.length)) = true ↔
      ¬ (b.index ∉ r.voters ∧ r.voters.length < 8) := by
    simp only [Bool.or_eq_true, List.contains_iff_mem, decide_eq_true_eq]
    by_cases hmem : b.index ∈ r.voters <;> simp [hmem]
  have hlonger : r.voters ++ [b.index] ≠ r.voters := by simp
  unfold voteFor
  by_cases hjoins : b.index ∉ r.voters ∧ r.voters.length < 8
  · simp only [if_neg ((not_congr hstays).mpr (Classical.not_not.mpr hjoins)), if_neg hlonger, if_pos hjoins, evaluate, and_iff_right hjoins]
    rfl
  · simp only [if_pos (hstays.mpr hjoins), if_true, hjoins, false_and, if_false]
    rfl

section
variable {b : Ballot} {p : Poll} {k : Key}

theorem vote_of_found {slot : Nat} {r : TallyRecord} (h : findKey p.tally.records k = some (slot, r)) :
    vote b p k = voteFor b slot r p := by
  simp only [vote, h]

theorem vote_of_free {slot : Nat} (h : findKey p.tally.records k = none) (hfree : lowestFree p.tally.records 256 0 = some slot) :
    vote b p k = createIn b k slot p := by
  simp only [vote, h, hfree]

theorem vote_of_victim {slot : Nat} {v : TallyRecord} (h : findKey p.tally.records k = none)
    (hfull : lowestFree p.tally.records 256 0 = none) (hvictim : victim p.tally.records p.touched = some (slot, v)) :
    vote b p k = createIn b k slot { p with tally := { p.tally with replacement := bump p.tally.replacement } } := by
  simp only [vote, h, hfull, hvictim]

theorem vote_of_full (h : findKey p.tally.records k = none) (hfull : lowestFree p.tally.records 256 0 = none)
    (hvictim : victim p.tally.records p.touched = none) : vote b p k =
      { p with tally := { p.tally with overflow := bump p.tally.overflow }, events := p.events ++ [.tallyFull] } := by
  simp only [vote, h, hfull, hvictim]

end

theorem victim_of_some {records : Table TallyRecord} {touched : List Nat} {slot : Nat} {v : TallyRecord}
    (h : victim records touched = some (slot, v)) : (slot, v) ∈ records ∧ v.state = .watch ∧ slot ∉ touched
      ∧ ∀ x ∈ records, x.2.state = .watch → x.1 ∉ touched → lexLess (victimKey x.2) (victimKey v) = false := by
  obtain ⟨-, hnone⟩ | ⟨b, hsome, hb, hbest⟩ := victim_spec records touched
  · rw [hnone] at h; cases h
  · obtain rfl : b = (slot, v) := Option.some.inj (hsome.symm.trans h)
    obtain ⟨hmem, hwatch, hnew⟩ := mem_candidates.mp hb
    exact ⟨hmem, hwatch, hnew, fun x hx hstate htouched =>
      Bool.eq_false_iff.mpr (hbest x (mem_candidates.mpr ⟨hx, hstate, htouched⟩))⟩

theorem victim_of_none {records : Table TallyRecord} {touched : List Nat} (h : victim records touched = none) :
    ∀ x ∈ records, x.2.state = .watch → x.1 ∈ touched := by
  obtain ⟨hnil, -⟩ | ⟨b, hsome, -⟩ := victim_spec records touched
  · intro x hx hwatch
    refine Classical.byContradiction fun hnew => ?_
    have hmem := mem_candidates.mpr ⟨hx, hwatch, hnew⟩
    rw [hnil] at hmem
    cases hmem
  · rw [hsome] at h; cases h

/-- Settles O40: one vote by the record, the slot or the victim it finds. -/
theorem votes : Obligations.Votes := by
  refine ⟨fun b keys s => rfl, fun t bound => lowestFree_zero_iff t bound, fun b p k => ?_⟩
  refine ⟨fun slot r hfound => ?_, fun slot hnone hfree => ?_, fun slot v hnone hfull hvictim => ?_, fun hnone hfull hvictim => ?_,
    fun slot v => victim_of_some, victim_of_none⟩
  · exact (vote_of_found hfound).trans (voteFor_eq b slot r p)
  · exact (vote_of_free hnone hfree).trans (createIn_eq b k slot p)
  · exact (vote_of_victim hnone hfull hvictim).trans (createIn_eq b k slot _)
  · exact vote_of_full hnone hfull hvictim

end Sys2Proof.Machine
end

section
/-! Band watch and the search's band notices (O41, O46). -/

namespace Sys2Proof.Machine

/-! ## The peak and the classes (R87 to R90) -/

theorem max_eq_or (a b : Level) : max a b = a ∨ max a b = b := by
  unfold Level at *
  omega

theorem peakOf_spec {bins : List Level} (h : bins ≠ []) : peakOf bins ∈ bins ∧ ∀ x ∈ bins, x ≤ peakOf bins := by
  induction bins with
  | nil => exact absurd rfl h
  | cons a rest ih =>
    cases rest with
    | nil => simp [peakOf]
    | cons b later =>
      obtain ⟨hmem, hmax⟩ := ih (List.cons_ne_nil b later)
      simp only [peakOf]
      refine ⟨?_, fun x hx => ?_⟩
      · rcases max_eq_or a (peakOf (b :: later)) with heq | heq
        · rw [heq]; exact List.mem_cons_self
        · rw [heq]; exact List.mem_cons_of_mem _ hmem
      · obtain rfl | hx := List.mem_cons.mp hx
        · exact Int.le_max_left _ _
        · exact Int.le_trans (hmax x hx) (Int.le_max_right _ _)

section
variable {b : Band} {bins : List Level}

/-- A sweep is hot for a band (R87). -/
def Hot (b : Band) (bins : List Level) : Prop :=
  b.declareMargin ≤ peakOf bins - b.floor
    ∧ b.minBins ≤ (bins.filter (fun x => decide (b.floor + b.declareMargin ≤ x))).length

/-- A sweep is cold for a band, unless it is hot (R87). -/
def Cold (b : Band) (bins : List Level) : Prop := peakOf bins - b.floor < b.clearMargin

theorem classifySweep_of_hot (h : Hot b bins) : classifySweep b bins = .hot := if_pos h

theorem classifySweep_of_cold (h : ¬ Hot b bins) (hcold : Cold b bins) : classifySweep b bins = .cold :=
  (if_neg h).trans (if_pos hcold)

theorem classifySweep_of_neither (h : ¬ Hot b bins) (hcold : ¬ Cold b bins) : classifySweep b bins = .neither :=
  (if_neg h).trans (if_neg hcold)

theorem stateAfter_eq_declared_iff (b : Band) (hot cold : Nat) (v : BandState) : stateAfter b hot cold v = .declared ↔
    (v = .clear ∧ b.declareCount ≤ hot) ∨ (v = .declared ∧ cold < b.clearCount) := by
  cases v with
  | clear => simp [stateAfter]
  | declared => simp [stateAfter]

theorem liveAfter_of_hot (h : Hot b bins) (v : BandLive) :
    let w := liveAfter b bins v
    w.hotRun = min 15 (v.hotRun + 1) ∧ w.coldRun = 0 ∧ w.burst = min 65535 (v.burst + 1)
      ∧ w.longest = max v.longest w.burst ∧ w.hotCount = min 65535 (v.hotCount + 1) := by
  have hclass := classifySweep_of_hot h
  simp [liveAfter, hclass, runsAfter, bump]

theorem liveAfter_of_cold (h : ¬ Hot b bins) (hcold : Cold b bins) (v : BandLive) :
    let w := liveAfter b bins v
    w.hotRun = 0 ∧ w.coldRun = min 15 (v.coldRun + 1) ∧ w.burst = 0 ∧ w.longest = v.longest ∧ w.hotCount = v.hotCount := by
  have hclass := classifySweep_of_cold h hcold
  simp [liveAfter, hclass, runsAfter, bump]

theorem liveAfter_of_neither (h : ¬ Hot b bins) (hcold : ¬ Cold b bins) (v : BandLive) :
    let w := liveAfter b bins v
    w.hotRun = 0 ∧ w.coldRun = 0 ∧ w.burst = 0 ∧ w.longest = v.longest ∧ w.hotCount = v.hotCount := by
  have hclass := classifySweep_of_neither h hcold
  simp [liveAfter, hclass, runsAfter, bump]

end

theorem bandEvent_eq (n sweep : Nat) (b : Band) (v : BandLive) {w : BandLive} {peak : Level} (hpeak : w.peak = some peak) :
    bandEvent n sweep b v w =
      if v.state = .clear ∧ w.state = .declared then [.declare n sweep peak]
      else if v.state = .declared ∧ w.state = .clear ∧ b.mode = .both then [.clear n sweep]
      else [] := by
  unfold bandEvent
  cases hv : v.state with
  | clear => cases hw : w.state <;> simp [hpeak]
  | declared => cases hw : w.state <;> simp

theorem handOff_bands (n : Nat) (levels : List Level) (s : State) : (handOff n levels s).bands =
    { s.bands with
      bands := s.bands.bands.map (fun x =>
        if x.entry.enabled = true then
          { x with live := liveAfter x.entry ((levels.drop x.entry.start).take (x.entry.stop + 1 - x.entry.start)) x.live }
        else x) } := by
  obtain ⟨-, -, -, hbands, -⟩ := handOff_touches n levels s
  exact hbands

/-- A hand-off is the classification and then the notice to a running search (R86, R91). -/
theorem handOff_eq (n : Nat) (levels : List Level) (s : State) : handOff n levels s =
    match s.search.record.bind (fun r => bandNotice s.bands.bands (s.bands.bands.map (bandAfter levels)) r.band) with
    | some (peak, cleared) => searchNotice peak cleared (classified n levels s)
    | none => classified n levels s := by
  rw [← classified_eq]
  rfl

/-- Settles O41: one band by the class of the sweep, and the hand-off of all bands. -/
theorem bandClassification : Obligations.BandClassification := by
  refine ⟨fun levels n s => handOff_bands n levels s, fun bins => peakOf_spec, fun b bins v hne => ?_,
    fun n sweep b v w peak => bandEvent_eq n sweep b v, fun levels n s hidle => ?_⟩
  · exact ⟨rfl, fun hhot => liveAfter_of_hot hhot v, fun hhot hcold => liveAfter_of_cold hhot hcold v,
      fun hhot hcold => liveAfter_of_neither hhot hcold v, stateAfter_eq_declared_iff b _ _ v.state, rfl, rfl, rfl⟩
  · rw [handOff_eq, hidle]
    rfl

/-! ## Band notices (R126, R128, R129) -/

theorem handOff_of_record {n : Nat} {levels : List Level} {x : SearchRecord} {b : BandSlot} {s : State}
    (hx : s.search.record = some x) (hb : s.bands.bands[x.band]? = some b) (henabled : b.entry.enabled = true) :
    let bins := (levels.drop b.entry.start).take (b.entry.stop + 1 - b.entry.start)
    handOff n levels s = searchNotice (peakOf bins)
      (decide (b.live.state = .declared ∧ (liveAfter b.entry bins b.live).state = .clear)) (classified n levels s) := by
  intro bins
  have hafter : (s.bands.bands.map (bandAfter levels))[x.band]? = some { b with live := liveAfter b.entry bins b.live } := by
    rw [List.getElem?_map, hb, Option.map_some, bandAfter, if_pos henabled]
    rfl
  have hnotice : bandNotice s.bands.bands (s.bands.bands.map (bandAfter levels)) x.band =
      some (peakOf bins, decide (b.live.state = .declared ∧ (liveAfter b.entry bins b.live).state = .clear)) := by
    simp only [bandNotice, hb, hafter, henabled, if_true]
    rfl
  rw [handOff_eq, hx, Option.bind_some, hnotice]

section
variable {peak : Int} {x : SearchRecord} {l : Leg} {s : State} (hx : s.search.record = some x)
include hx

theorem searchNotice_cleared : searchNotice peak true s = fixCause .ingressGone s := by
  simp only [searchNotice, hx, if_true]

theorem searchNotice_baseline (hst : x.state = .baseline) : searchNotice peak false s = collectBaseline peak x s := by
  simp only [searchNotice, hx, hst, Bool.false_eq_true, if_false]

theorem searchNotice_settle (hst : x.state = .settle) : searchNotice peak false s = passSettle x s := by
  simp only [searchNotice, hx, hst, Bool.false_eq_true, if_false]

theorem searchNotice_measure (hst : x.state = .measure) : searchNotice peak false s = collectMeasure peak x s := by
  simp only [searchNotice, hx, hst, Bool.false_eq_true, if_false]

theorem searchNotice_other (hst : x.state = .stepping ∨ x.state = .releasing ∨ x.state = .releaseWait ∨ x.state = .ending) :
    searchNotice peak false s = s := by
  rcases hst with hst | hst | hst | hst <;> simp only [searchNotice, hx, hst, Bool.false_eq_true, if_false]

end

theorem currentAddress_of_leg {x : SearchRecord} {l : Leg} (hl : x.legs[x.current]? = some l) : currentAddress x = l.address := by
  simp [currentAddress, currentLeg, hl]

theorem setLeg_of_leg {x : SearchRecord} {l : Leg} (hl : x.legs[x.current]? = some l) (cls : LegClass) (d : Option Int) :
    setLeg cls d x.current x.legs = x.legs.set x.current { l with cls := some cls, drop := d } := by
  simp only [setLeg, hl]

section
variable {peak : Int} {x : SearchRecord} {l : Leg} {s : State}

theorem collectBaseline_of_lt (hk : x.collected + 1 < x.k) : collectBaseline peak x s =
    setSearch { x with peakSum := x.peakSum + peak, collected := x.collected + 1 } s := if_neg (Nat.not_le.mpr hk)

theorem collectBaseline_of_eq (hl : x.legs[x.current]? = some l) (hk : x.collected + 1 = x.k) : collectBaseline peak x s =
    post l.address (.step x.level x.hold) (setSearch
      { x with
        state := .stepping, peakSum := x.peakSum + peak, collected := x.k
        baseline := some ((x.peakSum + peak) / (x.k : Int)) } s) := by
  simp only [collectBaseline, hk, Nat.le_refl, if_true, currentAddress_of_leg hl]

theorem collectMeasure_of_lt (hk : x.collected + 1 < x.k) : collectMeasure peak x s =
    setSearch { x with peakSum := x.peakSum + peak, collected := x.collected + 1 } s := if_neg (Nat.not_le.mpr hk)

theorem collectMeasure_of_eq (hl : x.legs[x.current]? = some l) (hk : x.collected + 1 = x.k) {base : Int}
    (hbase : x.baseline = some base) : collectMeasure peak x s =
      let d := base - (x.peakSum + peak) / (x.k : Int)
      post l.address .release (setSearch
        { x with
          state := .releasing, peakSum := x.peakSum + peak, collected := x.k, measureDeadline := none
          measured := x.measured + 1
          legs := x.legs.set x.current { l with cls := some (classOf x d), drop := some d } } s) := by
  have haddress (y : SearchRecord) (hlegs : y.legs = x.legs.set x.current
      { l with cls := some (classOf x (base - (x.peakSum + peak) / (x.k : Int)))
               drop := some (base - (x.peakSum + peak) / (x.k : Int)) })
      (hcurrent : y.current = x.current) : currentAddress y = l.address := by
    have hlt : x.current < x.legs.length := index_lt hl
    simp [currentAddress, currentLeg, hlegs, hcurrent, hlt]
  simp only [collectMeasure, hk, Nat.le_refl, if_true, hbase, Option.getD_some, postRelease, classify, setLeg_of_leg hl]
  exact congrArg (fun a => post a .release _) (haddress _ rfl rfl)

end

/-- Settles O46: the notice of a hand-off, by the state of the search. -/
theorem searchNotices : Obligations.SearchNotices := by
  refine ⟨fun n levels x b s => handOff_of_record, fun peak x l s hx hl hk => ?_⟩
  refine ⟨searchNotice_cleared hx, fun hst hlt => ?_, fun hst heq => ?_, fun hst htwo => ?_, fun hst hone => ?_, fun hst hlt => ?_,
    fun base hst heq hbase => ?_, searchNotice_other hx⟩
  · exact (searchNotice_baseline hx hst).trans (collectBaseline_of_lt hlt)
  · exact (searchNotice_baseline hx hst).trans (collectBaseline_of_eq hl heq)
  · exact (searchNotice_settle hx hst).trans (if_neg (by omega))
  · refine (searchNotice_settle hx hst).trans ((if_pos (by omega)).trans ?_)
    rfl
  · exact (searchNotice_measure hx hst).trans (collectMeasure_of_lt hlt)
  · exact (searchNotice_measure hx hst).trans (collectMeasure_of_eq hl heq hbase)

end Sys2Proof.Machine
end

section
/-! Events and the report slots (O48). -/

namespace Sys2Proof.Machine

/-- The waiting entries of one slot in the report queue. -/
def waitingOf (i : Nat) (q : List QueuedSlot) : List QueuedSlot := q.filter (fun y => y.slot == i)

/-- A trigger counted at an entry of the report queue (R182). -/
def counted (y : QueuedSlot) : QueuedSlot := { y with count := min 65535 (y.count + 1) }

/-- What a trigger of slot `i` leaves waiting for that slot (R182). -/
def triggered (i : Nat) (cause : Cause) (q : List QueuedSlot) : List QueuedSlot :=
  if q.any (fun y => y.slot == i) = true then (waitingOf i q).map counted
  else [{ slot := i, cause := cause, count := 1 }]

theorem any_slot_iff {i : Nat} {q : List QueuedSlot} : q.any (fun y => y.slot == i) = true ↔ ∃ y ∈ q, y.slot = i := by
  simp only [List.any_eq_true, beq_iff_eq]

theorem any_slot_eq {i : Nat} (q : List QueuedSlot) : q.any (fun y => y.slot == i) = !(waitingOf i q).isEmpty := by
  rw [Bool.eq_iff_iff, any_slot_iff]
  simp [waitingOf]

/-- What is left for a slot depends on the queue only through that slot's own entries. -/
theorem triggered_congr {i : Nat} {p q : List QueuedSlot} (h : waitingOf i p = waitingOf i q) (cause : Cause) :
    triggered i cause p = triggered i cause q := by
  simp only [triggered, any_slot_eq, h]

theorem enqueueSlot_of_present {slot : Nat} {q : List QueuedSlot} (h : ∃ y ∈ q, y.slot = slot) (cause : Cause) :
    enqueueSlot slot cause q = q.map (fun y => if y.slot = slot then counted y else y) :=
  if_pos (any_slot_iff.mpr h)

theorem slot_counted_at (n : Nat) (y : QueuedSlot) : (if y.slot = n then counted y else y).slot = y.slot := by
  split <;> rfl

/-! ## One trigger -/

theorem waitingOf_enqueueSlot_ne {i n : Nat} (hne : i ≠ n) (cause : Cause) (q : List QueuedSlot) :
    waitingOf i (enqueueSlot n cause q) = waitingOf i q := by
  by_cases h : ∃ y ∈ q, y.slot = n
  · rw [enqueueSlot_of_present h, waitingOf, List.filter_map]
    have hsame : ((fun y : QueuedSlot => y.slot == i) ∘ fun y => if y.slot = n then counted y else y) = fun y => y.slot == i :=
      funext fun y => by rw [Function.comp_apply, slot_counted_at]
    rw [hsame]
    refine (List.map_congr_left fun y hy => ?_).trans (List.map_id _)
    have hi : y.slot = i := beq_iff_eq.mp (List.mem_filter.mp hy).2
    exact if_neg (hi ▸ hne)
  · simp only [not_exists, not_and] at h
    rw [enqueueSlot_of_absent h, waitingOf, List.filter_append, waitingOf]
    simp [hne.symm]

theorem waitingOf_enqueueSlot_self (n : Nat) (cause : Cause) (q : List QueuedSlot) :
    waitingOf n (enqueueSlot n cause q) = triggered n cause q := by
  by_cases h : ∃ y ∈ q, y.slot = n
  · rw [enqueueSlot_of_present h, triggered, if_pos (any_slot_iff.mpr h), waitingOf, List.filter_map]
    have hsame : ((fun y : QueuedSlot => y.slot == n) ∘ fun y => if y.slot = n then counted y else y) = fun y => y.slot == n :=
      funext fun y => by rw [Function.comp_apply, slot_counted_at]
    rw [hsame]
    exact List.map_congr_left fun y hy => if_pos (beq_iff_eq.mp (List.mem_filter.mp hy).2)
  · rw [triggered, if_neg (mt any_slot_iff.mp h)]
    simp only [not_exists, not_and] at h
    rw [enqueueSlot_of_absent h, waitingOf, List.filter_append]
    have hnone : q.filter (fun y => y.slot == n) = [] :=
      List.filter_eq_nil_iff.mpr fun y hy heq => h y hy (beq_iff_eq.mp heq)
    simp [hnone]

theorem slots_enqueueSlot (n : Nat) (cause : Cause) (q : List QueuedSlot) :
    (enqueueSlot n cause q).map (·.slot) = q.map (·.slot) ∨ (enqueueSlot n cause q).map (·.slot) = q.map (·.slot) ++ [n] := by
  by_cases h : ∃ y ∈ q, y.slot = n
  · refine .inl ?_
    rw [enqueueSlot_of_present h, List.map_map]
    exact List.map_congr_left fun y _ => slot_counted_at n y
  · simp only [not_exists, not_and] at h
    refine .inr ?_
    rw [enqueueSlot_of_absent h, List.map_append, List.map_singleton]

/-! ## One event, slot after slot -/

/-- The queue after the event met one slot. -/
def metSlot (ev : Event) (k : Nat) (x : ReportSlot) (q : List QueuedSlot) : List QueuedSlot :=
  if eventMatches x.entry ev = true then enqueueSlot k (.event ev) q else q

theorem raiseFrom_cons (ev : Event) (k : Nat) (x : ReportSlot) (rest : List ReportSlot) (q : List QueuedSlot) :
    raiseFrom ev k (x :: rest) q = raiseFrom ev (k + 1) rest (metSlot ev k x q) := rfl

theorem waitingOf_metSlot_ne {i k : Nat} (hne : i ≠ k) (ev : Event) (x : ReportSlot) (q : List QueuedSlot) :
    waitingOf i (metSlot ev k x q) = waitingOf i q := by
  unfold metSlot
  split
  · exact waitingOf_enqueueSlot_ne hne _ q
  · rfl

theorem waitingOf_metSlot_self (k : Nat) (ev : Event) (x : ReportSlot) (q : List QueuedSlot) :
    waitingOf k (metSlot ev k x q) = if eventMatches x.entry ev = false then waitingOf k q else triggered k (.event ev) q := by
  unfold metSlot
  cases eventMatches x.entry ev with
  | false => rfl
  | true => exact waitingOf_enqueueSlot_self k _ q

theorem slots_raiseFrom (ev : Event) (slots : List ReportSlot) : ∀ (k : Nat) (q : List QueuedSlot),
    ∃ new : List Nat, (raiseFrom ev k slots q).map (·.slot) = q.map (·.slot) ++ new ∧ new.Pairwise (· < ·) ∧ ∀ n ∈ new, k ≤ n := by
  induction slots with
  | nil => exact fun k q => ⟨[], (List.append_nil _).symm, .nil, fun n hn => absurd hn List.not_mem_nil⟩
  | cons x rest ih =>
    intro k q
    obtain ⟨new, hnew, hsorted, hge⟩ := ih (k + 1) (metSlot ev k x q)
    have hmet : (metSlot ev k x q).map (·.slot) = q.map (·.slot) ∨ (metSlot ev k x q).map (·.slot) = q.map (·.slot) ++ [k] := by
      unfold metSlot
      split
      · exact slots_enqueueSlot k _ q
      · exact .inl rfl
    rw [raiseFrom_cons, hnew]
    rcases hmet with hmet | hmet
    · exact ⟨new, by rw [hmet], hsorted, fun n hn => Nat.le_of_succ_le (hge n hn)⟩
    · refine ⟨k :: new, by rw [hmet, List.append_assoc, List.singleton_append], List.pairwise_cons.mpr ⟨hge, hsorted⟩, fun n hn => ?_⟩
      obtain rfl | hn := List.mem_cons.mp hn
      · exact Nat.le_refl _
      · exact Nat.le_of_succ_le (hge n hn)

theorem waitingOf_raiseFrom_below (ev : Event) (slots : List ReportSlot) : ∀ (k : Nat) (q : List QueuedSlot) (i : Nat), i < k →
    waitingOf i (raiseFrom ev k slots q) = waitingOf i q := by
  induction slots with
  | nil => exact fun _ _ _ _ => rfl
  | cons x rest ih =>
    intro k q i hlt
    rw [raiseFrom_cons, ih (k + 1) _ i (Nat.lt_succ_of_lt hlt), waitingOf_metSlot_ne (Nat.ne_of_lt hlt)]

theorem waitingOf_raiseFrom (ev : Event) (slots : List ReportSlot) : ∀ (k : Nat) (q : List QueuedSlot) (i : Nat) (x : ReportSlot),
    slots[i]? = some x → waitingOf (k + i) (raiseFrom ev k slots q) =
      if eventMatches x.entry ev = false then waitingOf (k + i) q else triggered (k + i) (.event ev) q := by
  induction slots with
  | nil => exact fun _ _ _ _ h => absurd h (by simp)
  | cons y rest ih =>
    intro k q i x hx
    rw [raiseFrom_cons]
    cases i with
    | zero =>
      obtain rfl : y = x := Option.some.inj hx
      rw [Nat.add_zero, waitingOf_raiseFrom_below ev rest (k + 1) _ k (Nat.lt_succ_self k), waitingOf_metSlot_self]
    | succ i =>
      have hsame : waitingOf (k + 1 + i) (metSlot ev k y q) = waitingOf (k + 1 + i) q := waitingOf_metSlot_ne (by omega) ev y q
      have hnext := ih (k + 1) (metSlot ev k y q) i x hx
      rw [hsame, triggered_congr hsame] at hnext
      rwa [show k + (i + 1) = k + 1 + i by omega]

/-! ## The matching of an event (R185) -/

theorem filterAdmits_iff (e : SlotEntry) (band : Nat) : filterAdmits e band = true ↔ e.bandFilter = none ∨ e.bandFilter = some band := by
  simp only [filterAdmits, Bool.or_eq_true, Option.isNone_iff_eq_none, beq_iff_eq]

theorem eventMatches_of_none {e : SlotEntry} (h : e.events = none) (ev : Event) : eventMatches e ev = false := by
  simp [eventMatches, h]

theorem eventMatches_of_some {e : SlotEntry} {set : EventSet} (h : e.events = some set) (ev : Event) : eventMatches e ev = true ↔
    e.enabled = true ∧ e.trigger = .onEvent ∧
      match ev with
      | .declare band _ _ => set.declare = true ∧ (e.bandFilter = none ∨ e.bandFilter = some band)
      | .clear band _ => set.clear = true ∧ (e.bandFilter = none ∨ e.bandFilter = some band)
      | .newSuspect => set.newSuspect = true
      | .tallyFull => set.tallyFull = true
      | .searchEnd _ _ => set.searchEnd = true := by
  cases ev <;> simp [eventMatches, h, filterAdmits_iff, and_assoc]

/-- Settles O48: an event at the slots in ascending number, each by its own waiting entries. -/
theorem eventsReachSlots : Obligations.EventsReachSlots := by
  refine ⟨fun e ev => ?_, fun slot cause q => ⟨fun h => enqueueSlot_of_absent h cause, fun h => enqueueSlot_of_present h cause⟩,
    fun r ev => ⟨rfl, rfl, ?_, fun i x hx => ?_⟩⟩
  · cases hset : e.events with
    | none => simp [eventMatches_of_none hset]
    | some set =>
      refine (eventMatches_of_some hset ev).trans (and_congr_right' (and_congr_right' ⟨fun h => ⟨set, rfl, h⟩, fun h => ?_⟩))
      obtain ⟨other, heq, hmatch⟩ := h
      cases heq
      exact hmatch
  · obtain ⟨new, hnew, hsorted, -⟩ := slots_raiseFrom ev r.slots 0 r.queue
    exact ⟨new, hnew, hsorted⟩
  · have hwaiting := waitingOf_raiseFrom ev r.slots 0 r.queue i x hx
    rwa [Nat.zero_add] at hwaiting

end Sys2Proof.Machine
end

section
/-! The level decision and the end of a search (O47). -/

namespace Sys2Proof.Machine

/-! ## Entries by drop (R136) -/

/-- The order of R136: by drop, greatest first, the lower element number first on a tie. -/
def DropOrder (a b : Secondary) : Prop := b.drop < a.drop ∨ (a.drop = b.drop ∧ a.element ≤ b.element)

theorem dropBefore_iff (a b : Secondary) : dropBefore a b = true ↔ b.drop < a.drop ∨ (a.drop = b.drop ∧ a.element < b.element) := by
  simp [dropBefore]

theorem byDrop_perm (l : List Secondary) : (byDrop l).Perm l := sortBy_perm dropBefore l

theorem byDrop_pairwise (l : List Secondary) : (byDrop l).Pairwise DropOrder := by
  refine sortBy_pairwise dropBefore DropOrder (fun {a b c} hab hbc => ?_) (fun {a b} h => ?_) (fun {a b} h => ?_) l
  · unfold DropOrder at *
    omega
  · rw [dropBefore_iff] at h
    unfold DropOrder
    omega
  · rw [← Bool.not_eq_true, dropBefore_iff] at h
    unfold DropOrder
    omega

/-- A leg's entry when its class is among those asked for (R134, R136). -/
def entryOf (p : LegClass → Bool) (l : Leg) : Option Secondary :=
  l.cls.bind (fun c => l.drop.bind (fun d => if p c = true then some { element := l.element, cls := c, drop := d } else none))

theorem legsOfClass_eq (p : LegClass → Bool) (legs : List Leg) : legsOfClass p legs = legs.filterMap (entryOf p) := by
  unfold legsOfClass
  congr 1
  funext l
  unfold entryOf
  cases l.cls with
  | none => rfl
  | some c => cases l.drop <;> rfl

theorem mem_legsOfClass_iff {p : LegClass → Bool} {legs : List Leg} {x : Secondary} : x ∈ legsOfClass p legs ↔
    ∃ l ∈ legs, l.cls = some x.cls ∧ l.drop = some x.drop ∧ p x.cls = true ∧ l.element = x.element := by
  rw [legsOfClass_eq, List.mem_filterMap]
  refine exists_congr fun l => and_congr_right fun _ => ?_
  obtain ⟨element, cls, drop⟩ := x
  simp only [entryOf, Option.bind_eq_some_iff]
  constructor
  · rintro ⟨c, hc, d, hd, hx⟩
    split at hx
    next hp =>
      cases hx
      exact ⟨hc, hd, hp, rfl⟩
    next => cases hx
  · rintro ⟨hc, hd, hp, rfl⟩
    exact ⟨cls, hc, drop, hd, if_pos hp⟩

/-! ## The level decision (R135) -/

/-- The entries of the FULL legs of a level, the decided one first. -/
def fullEntries (legs : List Leg) : List Secondary := byDrop (legsOfClass (· == .full) legs)

theorem mem_fullEntries_iff {legs : List Leg} {x : Secondary} : x ∈ fullEntries legs ↔
    ∃ l ∈ legs, l.cls = some .full ∧ l.drop = some x.drop ∧ x.cls = .full ∧ l.element = x.element := by
  rw [fullEntries, (byDrop_perm _).mem_iff, mem_legsOfClass_iff]
  refine exists_congr fun l => and_congr_right fun _ => ?_
  simp only [beq_iff_eq]
  constructor
  · rintro ⟨hc, hd, hp, he⟩
    exact ⟨hp ▸ hc, hd, hp, he⟩
  · rintro ⟨hc, hd, hp, he⟩
    exact ⟨hp ▸ hc, hd, hp, he⟩

theorem fullEntries_eq_nil {legs : List Leg} (h : ∀ l ∈ legs, l.cls ≠ some .full) : fullEntries legs = [] := by
  refine List.eq_nil_iff_forall_not_mem.mpr fun x hx => ?_
  obtain ⟨l, hl, hcls, -⟩ := mem_fullEntries_iff.mp hx
  exact h l hl hcls

theorem decideLevel_of_first {legs : List Leg} {best : Secondary} {rest : List Secondary} (h : fullEntries legs = best :: rest) :
    decideLevel legs = .descend best.element := by
  unfold fullEntries at h
  simp only [decideLevel, h]

theorem decideLevel_of_nil {legs : List Leg} (h : fullEntries legs = []) : decideLevel legs =
    if ∃ l ∈ legs, l.cls = some .partialDrop then .stop .split
    else if ∃ l ∈ legs, l.cls = some .unknown then .stop .inconclusive
    else .stop .localized := by
  unfold fullEntries at h
  simp only [decideLevel, h, List.any_eq_true, beq_iff_eq]

/-- The first of the FULL entries is the leg that no other FULL leg comes before. -/
theorem decideLevel_of_greatest {legs : List Leg} {l : Leg} {d : Int} (hl : l ∈ legs) (hcls : l.cls = some .full)
    (hdrop : l.drop = some d)
    (hmax : ∀ m ∈ legs, ∀ e, m.cls = some .full → m.drop = some e → e < d ∨ (e = d ∧ l.element ≤ m.element)) :
    decideLevel legs = .descend l.element := by
  have hmem : { element := l.element, cls := .full, drop := d } ∈ fullEntries legs :=
    mem_fullEntries_iff.mpr ⟨l, hl, hcls, hdrop, rfl, rfl⟩
  cases hfull : fullEntries legs with
  | nil => exact absurd (hfull ▸ hmem) List.not_mem_nil
  | cons best rest =>
    rw [decideLevel_of_first hfull]
    obtain ⟨m, hm, hmcls, hmdrop, -, hmelement⟩ := mem_fullEntries_iff.mp (hfull ▸ List.mem_cons_self : best ∈ fullEntries legs)
    have hsorted : (best :: rest).Pairwise DropOrder := hfull ▸ byDrop_pairwise _
    rw [hfull] at hmem
    obtain heq | hlater := List.mem_cons.mp hmem
    · rw [← heq]
    · have hle : d < best.drop ∨ (best.drop = d ∧ best.element ≤ l.element) := (List.pairwise_cons.mp hsorted).1 _ hlater
      have hge : best.drop < d ∨ (best.drop = d ∧ l.element ≤ m.element) := hmax m hm best.drop hmcls hmdrop
      exact congrArg Decision.descend (by omega)

/-! ## Taking up (R125, R135) -/

section
variable {t : Table Element} {entries : Table TrackEntry} {n : Nat} {x : SearchRecord} (hnone : x.legs[x.current]? = none)
include hnone

theorem takeUp_of_split (h : decideLevel x.legs = .stop .split) :
    takeUp t entries (n + 1) x = .ended { x with secondary := splitSecondary x } .split x.head := by
  simp only [takeUp, currentLeg, hnone, h]

theorem takeUp_of_stop {o : SearchOutcome} (ho : o ≠ .split) (h : decideLevel x.legs = .stop o) :
    takeUp t entries (n + 1) x = .ended x o x.head := by
  cases o with
  | split => exact absurd rfl ho
  | localized | inconclusive | ingressGone | aborted | linkLost => simp only [takeUp, currentLeg, hnone, h]

theorem takeUp_of_descend {head : Nat} (h : decideLevel x.legs = .descend head) : takeUp t entries (n + 1) x =
    if childLegs t head = [] then .ended (descendTo t head x) .localized head else takeUp t entries n (descendTo t head x) := by
  have hempty : (descendTo t head x).legs = [] ↔ childLegs t head = [] := List.map_eq_nil_iff
  simp only [takeUp, currentLeg, hnone, h, hempty]

end

/-- The result of a search that ends (R142). -/
def resultOf (x : SearchRecord) (o : SearchOutcome) (head : Nat) (s : State) : SearchResult where
  number := x.number
  band := x.band
  level := x.level
  outcome := o
  head := head
  path := x.path
  secondary := x.secondary
  unknowns := x.unknowns
  coincidence := if o = .localized ∨ o = .split then coincidenceList s.map.elements head s.tally.records else []
  measured := x.measured
  startTime := x.startTime
  endTime := s.clocks.plantTime

/-- Settles O47: the classes, the decision by the FULL entries in drop order, the taking up, and the end of a search. -/
theorem levelDecisionAndEnd : Obligations.LevelDecisionAndEnd := by
  refine ⟨fun x d => rfl, fun legs hdrops => ⟨fun l hl d hcls hdrop => decideLevel_of_greatest hl hcls hdrop, fun hfull hpart => ?_,
    fun hneither hunknown => ?_, fun hnodrop => ?_⟩, fun l => ⟨byDrop_perm l, byDrop_pairwise l⟩, legsOfClass_eq,
    fun t entries n x => ⟨fun l hl hreach => takeUp_of_reachable hl ((unreachable_eq_false_iff _ _).mpr hreach),
      fun hnone => takeUp_of_split hnone, fun o hnone ho => takeUp_of_stop hnone ho, fun h hnone => takeUp_of_descend hnone⟩,
    fun x o head s => ⟨rfl, rfl⟩, fun x o head s => ?_⟩
  · rw [decideLevel_of_nil (fullEntries_eq_nil hfull), if_pos hpart]
  · rw [decideLevel_of_nil (fullEntries_eq_nil fun l hl => (hneither l hl).1),
      if_neg fun ⟨l, hl, hpart⟩ => (hneither l hl).2 hpart, if_pos hunknown]
  · have hne {c : LegClass} (hc : c ≠ .noDrop) : ∀ l ∈ legs, l.cls ≠ some c := fun l hl hcls =>
      hc (Option.some.inj (hcls.symm.trans (hnodrop l hl)))
    rw [decideLevel_of_nil (fullEntries_eq_nil (hne (by decide))), if_neg fun ⟨l, hl, h⟩ => hne (by decide) l hl h,
      if_neg fun ⟨l, hl, h⟩ => hne (by decide) l hl h]
  · intro marks inHead
    refine ⟨resultOf x o head s, rfl, rfl, rfl, rfl, rfl, rfl, rfl, rfl, rfl, rfl, rfl, rfl, fun h => if_neg h, fun h => if_pos h⟩

end Sys2Proof.Machine
end

section
/-! The start of a transaction (O42). -/

namespace Sys2Proof.Machine

/-! ## The arbiter's choice (R113) -/

section
variable {t : Telemetry}

/-- The search waits with a RELEASE. -/
def ReleasePosted (t : Telemetry) : Prop := ∃ a, t.searchRequest = some { address := a, command := .release }

theorem arbiterChoice_of_release {a : Nat} (h : t.searchRequest = some { address := a, command := .release }) :
    arbiterChoice t = some (.search, a, .release) := by
  simp [arbiterChoice, h, Option.filter]

theorem searchRelease_eq_none (h : ¬ ReleasePosted t) : t.searchRequest.filter (fun q => q.command == .release) = none := by
  rw [Option.filter_eq_none_iff]
  rintro ⟨a, c⟩ hq hc
  obtain rfl : c = .release := beq_iff_eq.mp hc
  exact h ⟨a, hq⟩

theorem arbiterChoice_of_direct {d : DirectEntry} {rest : List DirectEntry} (h : ¬ ReleasePosted t) (hhead : t.directQueue = d :: rest)
    (hmay : mayStart t.entries d.command = true) : arbiterChoice t = some (.direct, d.address, d.command) := by
  simp [arbiterChoice, searchRelease_eq_none h, hhead, hmay, Option.filter_some]

theorem arbiterChoice_of_step {a l k : Nat} (h : t.searchRequest = some { address := a, command := .step l k })
    (hhead : t.directQueue = []) (hpass : allPass t.entries = true) : arbiterChoice t = some (.search, a, .step l k) := by
  simp [arbiterChoice, h, hhead, mayStart, hpass, Option.filter]

end

theorem exec_tlmTransactionStart_of_choice {s : State} {who : Requester} {a : Nat} {c : TlmCommand} (hfree : s.tlm.transaction = none)
    (hchoice : arbiterChoice s.tlm = some (who, a, c)) : exec .tlmTransactionStart s = .next (startTransaction who a c s) := by
  change execTlmTransactionStart s = _
  simp only [execTlmTransactionStart, hfree, hchoice]

theorem exec_tlmTransactionStart_of_taken {s : State} (h : s.tlm.transaction ≠ none) : exec .tlmTransactionStart s = .next s := by
  change execTlmTransactionStart s = _
  unfold execTlmTransactionStart
  split
  next hfree _ => exact absurd hfree h
  next => rfl

theorem exec_tlmTransactionStart_of_none {s : State} (h : arbiterChoice s.tlm = none) : exec .tlmTransactionStart s = .next s := by
  change execTlmTransactionStart s = _
  unfold execTlmTransactionStart
  split
  next hchoice => exact absurd (h.symm.trans hchoice) nofun
  next => rfl

/-- A STEP may not start while an entry is out of PASS (R112). -/
theorem no_start {c : TlmCommand} {free : Prop} (h : (∃ l k, c = .step l k) ∧ ¬ free) : ¬ (free ∨ ∀ l k, c ≠ .step l k) := by
  obtain ⟨⟨l, k, rfl⟩, hbusy⟩ := h
  rintro (hfree | hother)
  · exact hbusy hfree
  · exact hother l k rfl

/-! ## What a start makes of the state (R104, R106, R108, R109) -/

theorem checkByte_eq_neg (bytes : List Byte) : checkByte bytes = -(bytes.foldl (· + ·) 0) := BitVec.zero_sub _

theorem entryAtStart_release (who : Requester) (due : Nat) (e : TrackEntry) :
    entryAtStart .release who due e = if e.state = .pass then e else { e with state := .releaseSent } := by
  cases hstate : e.state <;> simp [entryAtStart, TrackEntry.busy, hstate]

/-! ## The unit beside the part (R102, R103) -/

theorem LegUnit.step_expires_waits_of_le {u : LegUnit} {p : UnitStep} (hstep : u.step = some p) {ms : Nat} (h : p.remaining ≤ ms) :
    ((u.waits ms).expires).step = none := by
  obtain ⟨level, remaining⟩ := p
  obtain hlt | rfl := Nat.lt_or_eq_of_le h
  · simp [LegUnit.waits, LegUnit.expires, hstep, show remaining < ms from hlt]
  · simp [LegUnit.waits, LegUnit.expires, hstep, Option.filter]

/-- Settles O42: the arbiter's choice by the request that waits, the start of what it chose, and the hold at the unit. -/
theorem transactionStart : Obligations.TransactionStart := by
  intro s free started
  have hstarted (who : Requester) (a : Nat) (c : TlmCommand) : startTransaction who a c s = started who a c := by
    cases c with
    | step l k => simp only [startTransaction, commandFrame, checkByte_eq_neg]; rfl
    | release =>
      have hentry := funext (entryAtStart_release who (lapseMoment s.clocks.elapsed 0))
      simp only [startTransaction, commandFrame, checkByte_eq_neg, TlmCommand.holdSeconds, hentry]
      rfl
    | query => simp only [startTransaction, commandFrame, checkByte_eq_neg]; rfl
  refine ⟨fun hfree a hposted => ?_, fun hfree d rest hrelease hhead hmay => ?_, fun hfree a l k hposted hhead hpass => ?_,
    exec_tlmTransactionStart_of_taken, fun hrelease hdirect hsearch => ?_, fun hwatchdog u level hold taken waited => ?_⟩
  · exact (exec_tlmTransactionStart_of_choice hfree (arbiterChoice_of_release hposted)).trans (congrArg _ (hstarted _ _ _))
  · have hchoice := arbiterChoice_of_direct (not_exists.mpr hrelease) hhead ((mayStart_eq_true_iff _ _).mpr hmay)
    exact (exec_tlmTransactionStart_of_choice hfree hchoice).trans (congrArg _ (hstarted _ _ _))
  · have hchoice := arbiterChoice_of_step hposted hhead ((allPass_eq_true_iff _).mpr hpass)
    exact (exec_tlmTransactionStart_of_choice hfree hchoice).trans (congrArg _ (hstarted _ _ _))
  · refine exec_tlmTransactionStart_of_none (Option.not_isSome_iff_eq_none.mp (mt (arbiterChoice_isSome_iff s).mp ?_))
    rintro (⟨q, hq, hmay⟩ | ⟨d, rest, hd, hmay⟩)
    · exact no_start (hsearch q hq) hmay
    · exact no_start (hdirect d rest hd) hmay
  · intro due htaken hspan hlate
    refine ⟨by omega, LegUnit.step_expires_waits_of_le (p := ⟨level, seconds hold⟩) rfl ?_⟩
    simp only [seconds]
    omega

end Sys2Proof.Machine
end

section
/-! The end of a transaction and what the search makes of it, for O43 and O44. -/

namespace Sys2Proof.Machine

/-- The state after the end of a transaction, before its requester learns of it (R106, R119). -/
def ended (tx : Transaction) (reply : Option Reply) (s : State) : State :=
  { s with tlm := { s.tlm with entries := entriesAfter tx reply s, transaction := none } }

section
variable {tx : Transaction} {reply : Option Reply} {s : State}

theorem endTransaction_of_search (h : tx.requester = .search) : endTransaction tx reply s = searchOutcome tx reply (ended tx reply s) := by
  simp only [endTransaction, h]
  rw [dropRetained_ended tx reply s _ rfl rfl]
  rfl

/-- The answer to a direct command tells the entry as the outcome leaves it, be it then dropped or not (R118, R119). -/
theorem endTransaction_of_direct (h : tx.requester = .direct) {r : Request} {rest : List Request} (hr : s.mgmt.requests = r :: rest)
    {e : TrackEntry} (he : tableGet s.tlm.entries tx.address = some e) :
    let e' := entryAfter tx.command reply s.clocks.plantTime e
    endTransaction tx reply s =
      replied r (if reply.isSome = true then .ok else .timeout) (.direct tx.address reply (some (e'.state, e'.reachable)))
        (ended tx reply s) := by
  have hentry : (tableGet (tableModify s.tlm.entries tx.address
      (fun e => reachability s.clocks.plantTime reply (entryAtEnd tx.command reply e))) tx.address) =
        some (entryAfter tx.command reply s.clocks.plantTime e) := by
    rw [tableGet_tableModify, if_pos rfl, he, Option.map_some, reachability_entryAtEnd]
  simp only [endTransaction, h]
  rw [dropRetained_ended tx reply s _ rfl rfl, hentry, Option.map_some]
  exact answerHead_cons (s := ended tx reply s) _ _ hr

end

/-! ## A leg of the search UNKNOWN (R127 to R129, R136) -/

theorem classifyUnknown_of_leg {x : SearchRecord} {l : Leg} (hl : x.legs[x.current]? = some l) : classifyUnknown x =
    { x with
      legs := x.legs.set x.current { l with cls := some .unknown, drop := none }
      unknowns := if x.unknowns.length < 4 then x.unknowns ++ [l.element] else x.unknowns } := by
  simp only [classifyUnknown, setLeg_of_leg hl, currentLeg, hl]

theorem postRelease_classifyUnknown {x : SearchRecord} {l : Leg} (hl : x.legs[x.current]? = some l) (s : State) :
    postRelease (classifyUnknown x) .releasing s =
      { s with
        tlm := { s.tlm with searchRequest := some { address := l.address, command := .release } }
        search := { s.search with
          record := some
            { x with
              state := .releasing, measureDeadline := none
              legs := x.legs.set x.current { l with cls := some .unknown, drop := none }
              unknowns := if x.unknowns.length < 4 then x.unknowns ++ [l.element] else x.unknowns } } } := by
  have hlt : x.current < x.legs.length := index_lt hl
  have haddress : currentAddress (classifyUnknown x) = l.address := by
    simp [classifyUnknown_of_leg hl, currentAddress, currentLeg, hlt]
  rw [postRelease, haddress, classifyUnknown_of_leg hl]
  rfl

/-! ## The outcome at the search (R127, R130, R138) -/

section
variable {tx : Transaction} {reply : Option Reply} {x : SearchRecord} {l : Leg} {s : State}
  (hx : s.search.record = some x) (hl : x.legs[x.current]? = some l)
include hx hl

theorem searchOutcome_of_other_leg (hne : l.address ≠ tx.address) : searchOutcome tx reply s = s := by
  simp only [searchOutcome, hx, currentAddress_of_leg hl]
  exact if_pos hne.symm

section
variable (ha : l.address = tx.address)
include ha

theorem searchOutcome_of_leg : searchOutcome tx reply s =
    match x.state, tx.command, reply with
    | .stepping, .step _ _, some _ => stepAcknowledged tx.sentAt x s
    | .stepping, .step _ _, none => postRelease (classifyUnknown x) .releasing s
    | .releasing, .release, some _ => nextLeg x s
    | .releasing, .release, none => setSearch { x with state := .releaseWait } s
    | .ending, .step _ _, _ => postRelease x .ending s
    | .ending, .release, some _ => endSearch x (x.cause.getD .aborted) x.head s
    | _, _, _ => s := by
  simp only [searchOutcome, hx, currentAddress_of_leg hl]
  exact if_neg (not_not_intro ha.symm)

theorem searchOutcome_of_step_reply {level hold : Nat} {r : Reply} (hc : tx.command = .step level hold) (hst : x.state = .stepping) :
    let y := { x with measureDeadline := some (tx.sentAt + x.hold * 1000) }
    searchOutcome tx (some r) s =
      { s with search := { s.search with
          record := some (if 1 ≤ x.sk then { y with state := .settle, settle := x.sk }
            else { y with state := .measure, peakSum := 0, collected := 0 }) } } := by
  simp only [searchOutcome_of_leg hx hl ha, hc, hst, stepAcknowledged]
  split <;> rfl

theorem searchOutcome_of_step_timeout {level hold : Nat} (hc : tx.command = .step level hold) (hst : x.state = .stepping) :
    searchOutcome tx none s =
      { s with
        tlm := { s.tlm with searchRequest := some { address := l.address, command := .release } }
        search := { s.search with
          record := some
            { x with
              state := .releasing, measureDeadline := none
              legs := x.legs.set x.current { l with cls := some .unknown, drop := none }
              unknowns := if x.unknowns.length < 4 then x.unknowns ++ [l.element] else x.unknowns } } } := by
  simp only [searchOutcome_of_leg hx hl ha, hc, hst]
  exact postRelease_classifyUnknown hl s

/-- The end of a STEP posts the leg's RELEASE in ENDING, however the STEP ended (R138). -/
theorem searchOutcome_of_step_ending {level hold : Nat} (hc : tx.command = .step level hold) (hst : x.state = .ending) :
    searchOutcome tx reply s =
      { s with
        search := { s.search with record := some { x with measureDeadline := none } }
        tlm := { s.tlm with searchRequest := some { address := l.address, command := .release } } } := by
  have hsame : { x with state := .ending, measureDeadline := none } = { x with measureDeadline := none } :=
    congrArg (fun st => { x with state := st, measureDeadline := none }) hst.symm
  simp only [searchOutcome_of_leg hx hl ha, hc, hst, postRelease, currentAddress_of_leg hl, hsame]
  rfl

theorem searchOutcome_of_release_reply {r : Reply} (hc : tx.command = .release) (hst : x.state = .releasing) :
    searchOutcome tx (some r) s = settle (takeUp s.map.elements s.tlm.entries 80 { x with current := x.current + 1 }) s := by
  simp only [searchOutcome_of_leg hx hl ha, hc, hst, nextLeg, searchFuel]

theorem searchOutcome_of_release_timeout (hc : tx.command = .release) (hst : x.state = .releasing) :
    searchOutcome tx none s = { s with search := { s.search with record := some { x with state := .releaseWait } } } := by
  simp only [searchOutcome_of_leg hx hl ha, hc, hst]
  rfl

theorem searchOutcome_of_release_ending {r : Reply} {cause : SearchOutcome} (hc : tx.command = .release) (hst : x.state = .ending)
    (hcause : x.cause = some cause) : searchOutcome tx (some r) s = endSearch x cause x.head s := by
  simp only [searchOutcome_of_leg hx hl ha, hc, hst, hcause, Option.getD_some]

theorem searchOutcome_of_release_timeout_ending (hc : tx.command = .release) (hst : x.state = .ending) :
    searchOutcome tx none s = s := by
  simp only [searchOutcome_of_leg hx hl ha, hc, hst]

end

end

end Sys2Proof.Machine
end

section
/-! The watchdog's expiry (O44). -/

namespace Sys2Proof.Machine

theorem watchdogExpiry_idle {s : State} (h : s.tlm.transaction = none) : watchdogExpiry s = s := by
  simp only [watchdogExpiry, h]

theorem exec_tlmWatchdogExpiry_idle {s : State} (h : s.tlm.transaction = none) : exec .tlmWatchdogExpiry s = .next s := by
  change inTurn watchdogExpiry s = .next s
  obtain ⟨-, hturn⟩ | ⟨-, hturn⟩ := inTurn_cases watchdogExpiry s
  · rw [hturn, watchdogExpiry_idle h]
  · exact hturn

/-- The base carried to the expiry, the transaction ended TIMEOUT and counted (R106). -/
def timedOut (tx : Transaction) (s : State) : State :=
  { s with
    clocks := { s.clocks with elapsed := max s.clocks.elapsed tx.watchdog }
    tlm := { s.tlm with
      entries := entriesAfter tx none s, transaction := none, timeout := min 65535 (s.tlm.timeout + 1) } }

/-- The state a TIMEOUT is dealt with in: the base carried to the expiry and the timeout counted. -/
def expired (tx : Transaction) (s : State) : State :=
  { reach tx.watchdog s with tlm := { s.tlm with timeout := bump s.tlm.timeout } }

section
variable {tx : Transaction} {s : State}

theorem exec_tlmWatchdogExpiry_of_quiet (hquiet : Quiet s) (htx : s.tlm.transaction = some tx) :
    exec .tlmWatchdogExpiry s = .next (endTransaction tx none (expired tx s)) := by
  have hown : watchdogExpiry s = endTransaction tx none (expired tx s) := by
    simp only [watchdogExpiry, htx]
    rfl
  exact (inTurn_of_quiet _ hquiet).trans (congrArg _ hown)

theorem exec_tlmWatchdogExpiry_of_search (hquiet : Quiet s) (htx : s.tlm.transaction = some tx) (hwho : tx.requester = .search) :
    exec .tlmWatchdogExpiry s = .next (searchOutcome tx none (timedOut tx s)) :=
  (exec_tlmWatchdogExpiry_of_quiet hquiet htx).trans (congrArg _ (endTransaction_of_search (s := expired tx s) hwho))

theorem exec_tlmWatchdogExpiry_of_direct (hquiet : Quiet s) (htx : s.tlm.transaction = some tx) (hwho : tx.requester = .direct)
    {r : Request} {rest : List Request} (hr : s.mgmt.requests = r :: rest) {e : TrackEntry}
    (he : tableGet s.tlm.entries tx.address = some e) :
    let e' := entryAfter tx.command none s.clocks.plantTime e
    exec .tlmWatchdogExpiry s = .next (replied r .timeout (.direct tx.address none (some (e'.state, e'.reachable))) (timedOut tx s)) :=
  (exec_tlmWatchdogExpiry_of_quiet hquiet htx).trans
    (congrArg _ (endTransaction_of_direct (s := expired tx s) hwho (r := r) (rest := rest) hr he))

end

namespace Watchdogs

/-- Settles O44, in a namespace because the model has a function of this name: the TIMEOUT of a direct command and of a
search's, by the state of the search. -/
theorem watchdogExpiry : Obligations.WatchdogExpiry := by
  refine ⟨fun s => exec_tlmWatchdogExpiry_idle, fun c now e => ?_, fun tx s hquiet htx => ?_⟩
  · simp [entryAfter]
  · refine ⟨fun r rest e hwho hr he => exec_tlmWatchdogExpiry_of_direct hquiet htx hwho hr he, fun hwho hidle => ?_,
      fun x l hwho hx hl => ?_⟩
    · exact (exec_tlmWatchdogExpiry_of_search hquiet htx hwho).trans
        (congrArg _ (searchOutcome_of_idle (s := timedOut tx s) tx none hidle))
    · have hown := exec_tlmWatchdogExpiry_of_search hquiet htx hwho
      have hrecord : (timedOut tx s).search.record = some x := hx
      refine ⟨fun hne => ?_, fun h1 h2 h3 => ?_, fun level hold ha hc hst => ?_, fun level hold ha hc hst => ?_,
        fun ha hc hst => ?_, fun ha hc hst => ?_⟩
      · exact hown.trans (congrArg _ (searchOutcome_of_other_leg hrecord hl hne))
      · exact hown.trans (congrArg _ (searchOutcome_of_unawaited tx none hrecord h1 h2 h3))
      · exact hown.trans (congrArg _ (searchOutcome_of_step_timeout hrecord hl ha hc hst))
      · exact hown.trans (congrArg _ (searchOutcome_of_step_ending hrecord hl ha hc hst))
      · exact hown.trans (congrArg _ (searchOutcome_of_release_timeout hrecord hl ha hc hst))
      · exact hown.trans (congrArg _ (searchOutcome_of_release_timeout_ending hrecord hl ha hc hst))

end Watchdogs

end Sys2Proof.Machine
end

section
/-! Reply frames and the leg unit (O43). -/

namespace Sys2Proof.Machine

/-! ## Valid replies (R104, R105) -/

theorem replyCode_eq_some_iff (b : Byte) (k : ReplyCode) : replyCode b = some k ↔
    (b = 0x81 ∧ k = .ackStep) ∨ (b = 0x82 ∧ k = .ackRelease) ∨ (b = 0x83 ∧ k = .releasedAlready) ∨ (b = 0x84 ∧ k = .state) := by
  unfold replyCode
  by_cases h1 : b = 0x81
  · simp [h1, eq_comm]
  by_cases h2 : b = 0x82
  · simp [h2, eq_comm]
  by_cases h3 : b = 0x83
  · simp [h3, eq_comm]
  by_cases h4 : b = 0x84
  · simp [h4, eq_comm]
  simp only [h1, h2, h3, h4, if_false, false_and, or_self, reduceCtorEq]

theorem matched_iff (c : TlmCommand) (k : ReplyCode) : c.matched k = true ↔
    ((∃ level hold, c = .step level hold) ∧ k = .ackStep) ∨ (c = .release ∧ (k = .ackRelease ∨ k = .releasedAlready))
      ∨ (c = .query ∧ k = .state) := by
  cases c <;> cases k <;> simp [TlmCommand.matched]

/-- The reply code fits the waiting command (R104). -/
theorem replyCode_matched_iff (c : TlmCommand) (b : Byte) (k : ReplyCode) : (replyCode b = some k ∧ c.matched k = true) ↔
    ((∃ level hold, c = .step level hold) ∧ b = 0x81 ∧ k = .ackStep) ∨ (c = .release ∧ b = 0x82 ∧ k = .ackRelease)
      ∨ (c = .release ∧ b = 0x83 ∧ k = .releasedAlready) ∨ (c = .query ∧ b = 0x84 ∧ k = .state) := by
  rw [replyCode_eq_some_iff, matched_iff]
  cases k <;> simp [and_comm]

theorem validReply_iff_fields (tx : Transaction) (f : List Byte) (reply : Reply) : validReply tx f = some reply ↔
    (f.length = 7 ∧ byteAt f 0 = 0xD2 ∧ checkGood f = true ∧ (byteAt f 1).toNat = tx.address)
      ∧ (replyCode (byteAt f 2) = some reply.code ∧ tx.command.matched reply.code = true)
      ∧ reply.unitState = byteAt f 3 ∧ reply.level = byteAt f 4 ∧ reply.hold = byteAt f 5 := by
  obtain ⟨code, unitState, level, hold⟩ := reply
  unfold validReply
  by_cases hframe : f.length = 7 ∧ byteAt f 0 = 0xD2 ∧ checkGood f = true ∧ (byteAt f 1).toNat = tx.address
  · rw [if_pos hframe, and_iff_right hframe]
    cases hcode : replyCode (byteAt f 2) with
    | none => simp
    | some k =>
      by_cases hmatched : tx.command.matched k = true
      · simp only [hmatched, if_true, Option.some.injEq, Reply.mk.injEq]
        constructor
        · rintro ⟨rfl, h3, h4, h5⟩
          exact ⟨⟨rfl, hmatched⟩, h3.symm, h4.symm, h5.symm⟩
        · rintro ⟨⟨rfl, -⟩, h3, h4, h5⟩
          exact ⟨rfl, h3.symm, h4.symm, h5.symm⟩
      · refine iff_of_false (fun h => ?_) ?_
        · simp [hmatched] at h
        · rintro ⟨⟨hk, h⟩, -⟩
          cases hk
          exact hmatched h
  · rw [if_neg hframe]
    exact iff_of_false nofun (fun h => hframe h.1)

theorem validReply_iff (tx : Transaction) (f : List Byte) (reply : Reply) : validReply tx f = some reply ↔
    f.length = 7 ∧ byteAt f 0 = 0xD2 ∧ (f.map (·.toNat)).sum % 256 = 0 ∧ (byteAt f 1).toNat = tx.address
      ∧ (((∃ level hold, tx.command = .step level hold) ∧ byteAt f 2 = 0x81 ∧ reply.code = .ackStep)
          ∨ (tx.command = .release ∧ byteAt f 2 = 0x82 ∧ reply.code = .ackRelease)
          ∨ (tx.command = .release ∧ byteAt f 2 = 0x83 ∧ reply.code = .releasedAlready)
          ∨ (tx.command = .query ∧ byteAt f 2 = 0x84 ∧ reply.code = .state))
      ∧ reply.unitState = byteAt f 3 ∧ reply.level = byteAt f 4 ∧ reply.hold = byteAt f 5 := by
  rw [validReply_iff_fields, replyCode_matched_iff, checkGood_iff_sum]
  simp only [and_assoc]

/-! ## Bytes and frames heard (R105) -/

section
variable {s : State}

theorem hearByte_of_idle {b : Byte} (h : s.tlm.assembling = []) : hearByte b s =
    if b = 0xD2 then { s with tlm := { s.tlm with assembling := [b] } } else s := by
  by_cases hb : b = 0xD2 <;> simp [hearByte, h, hb]

theorem hearByte_of_more {b : Byte} (h : s.tlm.assembling ≠ []) (hlen : s.tlm.assembling.length < 6) :
    hearByte b s = { s with tlm := { s.tlm with assembling := s.tlm.assembling ++ [b] } } := by
  have hlt : (s.tlm.assembling ++ [b]).length < 7 := by
    rw [List.length_append]
    exact Nat.succ_lt_succ hlen
  exact (if_neg fun hidle => h hidle.1).trans (if_pos hlt)

theorem hearByte_of_last {b : Byte} (hlen : s.tlm.assembling.length = 6) :
    hearByte b s = examineReply (s.tlm.assembling ++ [b]) s := by
  have hne : s.tlm.assembling ≠ [] := List.ne_nil_of_length_pos (by omega)
  simp [hearByte, hne, hlen]

theorem hearFrame_of_fits {f : List Byte} (hlen : f.length = 7) (hstart : byteAt f 0 = 0xD2)
    (hfits : s.tlm.assembling = f.take s.tlm.assembling.length) : hearFrame f s = examineReply f s :=
  if_pos ⟨hlen, hstart, beq_iff_eq.mpr hfits.symm⟩

theorem hearFrame_of_last {b : Byte} (hlen : s.tlm.assembling.length = 6) (hstart : byteAt s.tlm.assembling 0 = 0xD2) :
    hearFrame (s.tlm.assembling ++ [b]) s = hearByte b s := by
  rw [hearByte_of_last hlen]
  refine hearFrame_of_fits (by simp [hlen]) ?_ (by simp)
  rwa [byteAt, List.getD_eq_getElem?_getD, List.getElem?_append_left (by omega), ← List.getD_eq_getElem?_getD]

theorem examineReply_of_invalid {f : List Byte} (h : ∀ tx, s.tlm.transaction = some tx → validReply tx f = none) :
    examineReply f s = { s with tlm := { s.tlm with assembling := [], ignored := min 65535 (s.tlm.ignored + 1) } } := by
  have hnone : s.tlm.transaction.bind (fun tx => (validReply tx f).map (fun r => (tx, r))) = none := by
    simp only [Option.bind_eq_none_iff, Option.map_eq_none_iff]
    exact h
  simp only [examineReply, hnone]
  rfl

/-- The state a valid reply is dealt with in: nothing is being assembled. -/
def examined (s : State) : State := { s with tlm := { s.tlm with assembling := [] } }

theorem examineReply_of_valid {f : List Byte} {tx : Transaction} {reply : Reply} (htx : s.tlm.transaction = some tx)
    (h : validReply tx f = some reply) : examineReply f s = endTransaction tx (some reply) (examined s) := by
  simp only [examineReply, htx, Option.bind_some, h, Option.map_some]
  rfl

end

/-! ## A complete frame as an event (R105) -/

section
variable {s : State} {f : List Byte} {tx : Transaction} {reply : Reply}

theorem exec_tlmReplyFrame_of_fits (hquiet : Quiet s) (hlen : f.length = 7) (hstart : byteAt f 0 = 0xD2)
    (hfits : s.tlm.assembling = f.take s.tlm.assembling.length) : exec (.tlmReplyFrame f) s = .next (examineReply f s) :=
  (inTurn_of_quiet _ hquiet).trans (congrArg _ (hearFrame_of_fits hlen hstart hfits))

/-- The transaction ended by a reply, and no frame being assembled. -/
def repliedTo (tx : Transaction) (reply : Reply) (s : State) : State :=
  { s with tlm := { s.tlm with entries := entriesAfter tx (some reply) s, transaction := none, assembling := [] } }

theorem examineReply_of_search (htx : s.tlm.transaction = some tx) (h : validReply tx f = some reply) (hwho : tx.requester = .search) :
    examineReply f s = searchOutcome tx (some reply) (repliedTo tx reply s) :=
  (examineReply_of_valid htx h).trans (endTransaction_of_search (s := examined s) hwho)

theorem examineReply_of_direct (htx : s.tlm.transaction = some tx) (h : validReply tx f = some reply) (hwho : tx.requester = .direct)
    {r : Request} {rest : List Request} (hr : s.mgmt.requests = r :: rest) {e : TrackEntry}
    (he : tableGet s.tlm.entries tx.address = some e) :
    let e' := entryAfter tx.command (some reply) s.clocks.plantTime e
    examineReply f s = replied r .ok (.direct tx.address (some reply) (some (e'.state, e'.reachable))) (repliedTo tx reply s) :=
  (examineReply_of_valid htx h).trans (endTransaction_of_direct (s := examined s) hwho (r := r) (rest := rest) hr he)

end

/-! ## The unit (R101 to R103) -/

theorem unitCommand_iff (code level hold : Byte) (c : TlmCommand) : unitCommand code level hold = some c ↔
    (∃ l h, code = 0x01 ∧ c = .step l h ∧ l = level.toNat ∧ h = hold.toNat ∧ 1 ≤ l ∧ l ≤ 3 ∧ 1 ≤ h ∧ h ≤ 60)
      ∨ (code = 0x02 ∧ c = .release) ∨ (code = 0x03 ∧ c = .query) := by
  by_cases h1 : code = 0x01
  · subst h1
    by_cases hvalues : 1 ≤ level.toNat ∧ level.toNat ≤ 3 ∧ 1 ≤ hold.toNat ∧ hold.toNat ≤ 60
    · have hstep : unitCommand 0x01 level hold = some (.step level.toNat hold.toNat) := (if_pos rfl).trans (if_pos hvalues)
      rw [hstep]
      constructor
      · intro hc
        cases hc
        exact .inl ⟨_, _, rfl, rfl, rfl, rfl, hvalues⟩
      · rintro (⟨l, h, -, rfl, rfl, rfl, -⟩ | ⟨hcode, -⟩ | ⟨hcode, -⟩)
        · rfl
        · exact absurd hcode (by decide)
        · exact absurd hcode (by decide)
    · have hnone : unitCommand 0x01 level hold = none := (if_pos rfl).trans (if_neg hvalues)
      rw [hnone]
      refine iff_of_false nofun ?_
      rintro (⟨l, h, -, -, rfl, rfl, hok⟩ | ⟨hcode, -⟩ | ⟨hcode, -⟩)
      · exact hvalues hok
      · exact absurd hcode (by decide)
      · exact absurd hcode (by decide)
  · by_cases h2 : code = 0x02
    · simp [unitCommand, h2, eq_comm]
    · by_cases h3 : code = 0x03
      · simp [unitCommand, h3, eq_comm]
      · simp only [unitCommand, h1, h2, h3, if_false, false_and, exists_const, or_self, reduceCtorEq]

theorem LegUnit.takes_iff (unit : LegUnit) (f : List Byte) (c : TlmCommand) : unit.takes f = some c ↔
    f.length = 6 ∧ byteAt f 0 = 0xD1 ∧ (f.map (·.toNat)).sum % 256 = 0 ∧ (byteAt f 1).toNat = unit.address
      ∧ ((∃ level hold, byteAt f 2 = 0x01 ∧ c = .step level hold ∧ level = (byteAt f 3).toNat ∧ hold = (byteAt f 4).toNat
            ∧ 1 ≤ level ∧ level ≤ 3 ∧ 1 ≤ hold ∧ hold ≤ 60)
          ∨ (byteAt f 2 = 0x02 ∧ c = .release)
          ∨ (byteAt f 2 = 0x03 ∧ c = .query)) := by
  rw [← unitCommand_iff, ← checkGood_iff_sum]
  unfold LegUnit.takes
  by_cases hframe : f.length = 6 ∧ byteAt f 0 = 0xD1 ∧ checkGood f = true ∧ (byteAt f 1).toNat = unit.address
  · simp only [hframe, and_self, if_true, true_and]
  · rw [if_neg hframe]
    exact iff_of_false nofun fun h => hframe ⟨h.1, h.2.1, h.2.2.1, h.2.2.2.1⟩

section
variable (unit : LegUnit)

theorem LegUnit.answerCode_release : unit.answerCode .release = if unit.step = none then 0x83 else 0x82 := by
  cases hstep : unit.step <;> simp [LegUnit.answerCode, hstep]

theorem LegUnit.reply_eq (c : TlmCommand) : unit.reply c =
    let bytes := [0xD2, BitVec.ofNat 8 unit.address, unit.answerCode c] ++ (unit.after c).report
    bytes ++ [-(bytes.foldl (· + ·) 0)] := by
  rw [LegUnit.reply, checkByte_eq_neg]

theorem LegUnit.report_eq : unit.report =
    match unit.step with
    | none => [0x00, 0x00, 0x00]
    | some p => [0x01, BitVec.ofNat 8 p.level, BitVec.ofNat 8 ((p.remaining + 999) / 1000)] := by
  unfold LegUnit.report
  cases unit.step <;> rfl

theorem LegUnit.exists_report : ∃ state level hold : Byte, unit.report = [state, level, hold] := by
  unfold LegUnit.report
  cases unit.step with
  | none => exact ⟨_, _, _, rfl⟩
  | some p => exact ⟨_, _, _, rfl⟩

end

section
variable {address level remaining ms : Nat}

theorem LegUnit.waits_of_le (h : ms ≤ remaining) :
    LegUnit.waits ms { address := address, step := some { level := level, remaining := remaining } } =
    { address := address, step := some { level := level, remaining := remaining - ms } } := by
  simp [LegUnit.waits, Nat.not_lt.mpr h]

theorem LegUnit.waits_of_lt (h : remaining < ms) :
    LegUnit.waits ms { address := address, step := some { level := level, remaining := remaining } } =
    { address := address, step := none } := by
  simp [LegUnit.waits, h]

theorem LegUnit.expires_of_pos (h : 0 < remaining) :
    LegUnit.expires { address := address, step := some { level := level, remaining := remaining } } =
    { address := address, step := some { level := level, remaining := remaining } } := by
  simp [LegUnit.expires, Option.filter, Nat.pos_iff_ne_zero.mp h]

end

/-! ## The unit at the other end of a transaction -/

theorem toNat_ofNat_of_le {a : Nat} (h : a ≤ 254) : (BitVec.ofNat 8 a).toNat = a := by
  rw [BitVec.toNat_ofNat]
  omega

theorem checkGood_commandFrame (a : Nat) (c : TlmCommand) : checkGood (commandFrame a c) = true := by
  cases c <;> exact checkGood_append_checkByte _

/-- A unit takes the frame of a transaction to its address. -/
theorem LegUnit.takes_commandFrame {unit : LegUnit} {a : Nat} {c : TlmCommand} (ha : a = unit.address) (hle : a ≤ 254)
    (hstep : ∀ level hold, c = .step level hold → 1 ≤ level ∧ level ≤ 3 ∧ 1 ≤ hold ∧ hold ≤ 60) :
    unit.takes (commandFrame a c) = some c := by
  have hgood := (checkGood_iff_sum _).mp (checkGood_commandFrame a c)
  have haddress : (BitVec.ofNat 8 a).toNat = unit.address := (toNat_ofNat_of_le hle).trans ha
  rw [LegUnit.takes_iff]
  cases c with
  | step level hold =>
    have hvalues := hstep level hold rfl
    exact ⟨rfl, rfl, hgood, haddress, .inl ⟨level, hold, rfl, rfl, (toNat_ofNat_of_le (by omega)).symm,
      (toNat_ofNat_of_le (by omega)).symm, hvalues⟩⟩
  | release => exact ⟨rfl, rfl, hgood, haddress, .inr (.inl ⟨rfl, rfl⟩)⟩
  | query => exact ⟨rfl, rfl, hgood, haddress, .inr (.inr ⟨rfl, rfl⟩)⟩

/-- The reply kind of a unit's answer. -/
def answerKind (unit : LegUnit) (c : TlmCommand) : ReplyCode :=
  match c with
  | .step _ _ => .ackStep
  | .release => if unit.step.isSome then .ackRelease else .releasedAlready
  | .query => .state

theorem answerCode_answers (unit : LegUnit) (c : TlmCommand) :
    replyCode (unit.answerCode c) = some (answerKind unit c) ∧ c.matched (answerKind unit c) = true := by
  cases c with
  | step level hold => exact ⟨rfl, rfl⟩
  | release => cases hstep : unit.step <;> simp [answerKind, LegUnit.answerCode, hstep, replyCode, TlmCommand.matched]
  | query => exact ⟨rfl, rfl⟩

/-- A unit's answer is a valid reply to the transaction that the unit took. -/
theorem validReply_reply {unit : LegUnit} {tx : Transaction} (ha : tx.address = unit.address) (hle : tx.address ≤ 254) :
    ∃ reply : Reply, validReply tx (unit.reply tx.command) = some reply
      ∧ [reply.unitState, reply.level, reply.hold] = (unit.after tx.command).report := by
  obtain ⟨state, level, hold, hreport⟩ := LegUnit.exists_report (unit.after tx.command)
  have hreply : unit.reply tx.command =
      [0xD2, BitVec.ofNat 8 unit.address, unit.answerCode tx.command, state, level, hold]
        ++ [checkByte [0xD2, BitVec.ofNat 8 unit.address, unit.answerCode tx.command, state, level, hold]] := by
    simp only [LegUnit.reply, hreport]
    rfl
  refine ⟨{ code := answerKind unit tx.command, unitState := state, level := level, hold := hold }, ?_, hreport.symm⟩
  rw [validReply_iff_fields, hreply]
  exact ⟨⟨rfl, rfl, checkGood_append_checkByte _, (toNat_ofNat_of_le (ha ▸ hle)).trans ha.symm⟩, answerCode_answers unit tx.command,
    rfl, rfl, rfl⟩

/-- Settles O43: the bytes and frames heard, the outcome at the requester, and the unit that answers. -/
theorem replyFrames : Obligations.ReplyFrames := by
  refine ⟨validReply_iff, fun b s hquiet hidle => ?_, fun b s hquiet hne hlen => ?_, fun b s hquiet hlen hinvalid => ?_,
    fun b s hquiet hlen hstart => ?_, fun f s hquiet hlen hstart hidle hinvalid => ?_,
    fun f tx reply s hquiet hlen hstart hfits htx hvalid => ?_, LegUnit.takes_iff, fun unit f => ⟨fun h => LegUnit.hears_of_ignores h, fun c h => ?_⟩,
    fun address level remaining ms => ?_, fun unit tx ha _ hle hstep => ?_⟩
  · exact (inTurn_of_quiet _ hquiet).trans (congrArg _ (hearByte_of_idle hidle))
  · exact (inTurn_of_quiet _ hquiet).trans (congrArg _ (hearByte_of_more hne hlen))
  · exact (inTurn_of_quiet _ hquiet).trans (congrArg _ ((hearByte_of_last hlen).trans (examineReply_of_invalid hinvalid)))
  · exact (inTurn_of_quiet _ hquiet).trans ((congrArg _ (hearFrame_of_last hlen hstart).symm).trans (inTurn_of_quiet _ hquiet).symm)
  · have hfits : s.tlm.assembling = f.take s.tlm.assembling.length := by rw [hidle]; rfl
    refine (exec_tlmReplyFrame_of_fits hquiet hlen hstart hfits).trans (congrArg _ ((examineReply_of_invalid hinvalid).trans ?_))
    exact congrArg (fun bytes => { s with tlm := { s.tlm with assembling := bytes, ignored := min 65535 (s.tlm.ignored + 1) } }) hidle.symm
  · have hframe := exec_tlmReplyFrame_of_fits hquiet hlen hstart hfits
    refine ⟨fun r rest e hwho hr he => ?_, fun hwho hidle => ?_, fun x l hwho hx hl => ?_⟩
    · exact hframe.trans (congrArg _ (examineReply_of_direct htx hvalid hwho hr he))
    · exact hframe.trans (congrArg _ ((examineReply_of_search htx hvalid hwho).trans
        (searchOutcome_of_idle (s := repliedTo tx reply s) tx (some reply) hidle)))
    · have hown := hframe.trans (congrArg _ (examineReply_of_search htx hvalid hwho))
      have hrecord : (repliedTo tx reply s).search.record = some x := hx
      refine ⟨fun hne => ?_, fun h1 h2 h3 => ?_, fun level hold ha hc hst => ?_, fun level hold ha hc hst => ?_,
        fun ha hc hst => ?_, fun cause ha hc hst hcause => ?_⟩
      · exact hown.trans (congrArg _ (searchOutcome_of_other_leg hrecord hl hne))
      · exact hown.trans (congrArg _ (searchOutcome_of_unawaited tx (some reply) hrecord h1 h2 h3))
      · exact hown.trans (congrArg _ (searchOutcome_of_step_reply hrecord hl ha hc hst))
      · exact hown.trans (congrArg _ (searchOutcome_of_step_ending hrecord hl ha hc hst))
      · exact hown.trans (congrArg _ (searchOutcome_of_release_reply hrecord hl ha hc hst))
      · exact hown.trans (congrArg _ (searchOutcome_of_release_ending hrecord hl ha hc hst hcause))
  · rw [LegUnit.hears_of_takes h, LegUnit.reply_eq, LegUnit.report_eq]
    cases c with
    | release => simp only [LegUnit.answerCode_release]; rfl
    | step | query => rfl
  · exact ⟨LegUnit.waits_of_le, LegUnit.waits_of_lt, rfl, LegUnit.expires_of_pos, rfl, rfl, rfl, rfl⟩
  · have htakes := LegUnit.takes_commandFrame ha hle hstep
    obtain ⟨reply, hreply, hreport⟩ := validReply_reply ha hle
    exact ⟨htakes, unit.reply tx.command, reply, LegUnit.hears_of_takes htakes, hreply, hreport⟩

end Sys2Proof.Machine
end

section
/-! The lapse and the measure deadline (O45). -/

namespace Sys2Proof.Machine

theorem TrackEntry.busy_iff (e : TrackEntry) : e.busy = true ↔ e.state ≠ .pass := bne_iff_ne

theorem tableGet_eq_none_of_forall {α : Type} {t : Table α} {k : Nat} (h : ∀ p ∈ t, p.1 ≠ k) : tableGet t k = none := by
  cases hget : tableGet t k with
  | none => rfl
  | some v => exact absurd rfl (h (k, v) (mem_of_tableGet hget))

theorem mem_tableModify {α : Type} {t : Table α} {k : Nat} {f : α → α} {p : Nat × α} (h : p ∈ tableModify t k f) :
    ∃ v, (p.1, v) ∈ t ∧ p.2 = if p.1 = k then f v else v := by
  obtain ⟨⟨j, v⟩, hmem, rfl⟩ := List.mem_map.mp h
  by_cases hj : j = k
  · exact ⟨v, by simpa [hj] using hmem, by simp [hj]⟩
  · exact ⟨v, by simpa [hj] using hmem, by simp [hj]⟩

/-- A filter that takes away exactly the changed record leaves the rest of the table as it was. -/
theorem filter_tableModify_of_gone {α : Type} {k : Nat} {f : α → α} {keep : Nat × α → Bool} {t : Table α}
    (hgone : ∀ p ∈ t, p.1 = k → keep (k, f p.2) = false) (hkeep : ∀ p ∈ t, p.1 ≠ k → keep p = true) :
    (tableModify t k f).filter keep = t.filter (fun p => p.1 != k) := by
  induction t with
  | nil => rfl
  | cons p rest ih =>
    have hrest := ih (fun q hq => hgone q (List.mem_cons_of_mem _ hq)) (fun q hq => hkeep q (List.mem_cons_of_mem _ hq))
    rw [tableModify] at hrest ⊢
    rw [List.map_cons]
    by_cases hk : p.1 = k
    · have hfalse := hgone p List.mem_cons_self hk
      rw [if_pos hk, hk, List.filter_cons_of_neg (by simp [hfalse]), List.filter_cons_of_neg (by simp [hk]), hrest]
    · have htrue := hkeep p List.mem_cons_self hk
      rw [if_neg hk, List.filter_cons_of_pos htrue, List.filter_cons_of_pos (by simp [hk]), hrest]

/-! ## Retained entries (R119) -/

/-- An entry that a clean-up of the table takes away (R119). -/
def goes (t : Telemetry) (p : Nat × TrackEntry) : Bool :=
  p.2.retained && !p.2.busy && !(t.transaction.any (fun tx => tx.address == p.1))

theorem dropRetained_eq (t : Telemetry) : dropRetained t = { t with entries := t.entries.filter (fun p => !goes t p) } := rfl

theorem goes_iff (t : Telemetry) (p : Nat × TrackEntry) : goes t p = true ↔
    p.2.retained = true ∧ p.2.state = .pass ∧ ∀ tx, t.transaction = some tx → tx.address ≠ p.1 := by
  simp only [goes, Bool.and_eq_true, Bool.not_eq_true', ← Bool.not_eq_true, TrackEntry.busy_iff, Classical.not_not, Option.any_eq_true,
    beq_iff_eq, not_exists, not_and, and_assoc]

theorem dropRetained_of_keeps {t : Telemetry} (h : ∀ p ∈ t.entries, ¬ goes t p = true) : dropRetained t = t := by
  have hall : t.entries.filter (fun p => !goes t p) = t.entries := List.filter_eq_self.mpr fun p hp => by simpa using h p hp
  rw [dropRetained_eq, hall]

/-! ## The lapse (R110) -/

/-- The base carried to the lapse, the entry in PASS and no entry taken away. -/
def lapsed (a due : Nat) (s : State) : State :=
  { s with
    clocks := { s.clocks with elapsed := max s.clocks.elapsed due }
    tlm := { s.tlm with
      entries := tableModify s.tlm.entries a (fun x => { x with state := .pass, owner := none, deadline := none }) } }

theorem entries_lapsed (a due : Nat) (s : State) : (lapsed a due s).tlm.entries = tableModify s.tlm.entries a TrackEntry.toPass := rfl

section
variable {a due : Nat} {e : TrackEntry} {s : State}

theorem lapse_eq (he : tableGet s.tlm.entries a = some e) (hdue : e.deadline = some due) (hbusy : e.state ≠ .pass)
    (hclear : lapseForestalled s a = false) :
    let u := { lapsed a due s with tlm := dropRetained (lapsed a due s).tlm }
    lapse a s = if searchHolds s a = true then searchLapse a u else u := by
  have hgo : (e.busy && !lapseForestalled s a) = true := by
    rw [hclear, (TrackEntry.busy_iff e).mpr hbusy]
    rfl
  simp only [lapse, he, hdue, hgo, if_true]
  rfl

theorem lapse_of_keeps (he : tableGet s.tlm.entries a = some e) (hdue : e.deadline = some due) (hbusy : e.state ≠ .pass)
    (hclear : lapseForestalled s a = false) (hkeeps : ∀ p ∈ (lapsed a due s).tlm.entries, ¬ goes (lapsed a due s).tlm p = true) :
    lapse a s = if searchHolds s a = true then searchLapse a (lapsed a due s) else lapsed a due s := by
  rw [lapse_eq he hdue hbusy hclear, dropRetained_of_keeps hkeeps]

/-- The table keeps who is retained when an entry lapses. -/
theorem retained_of_mem_lapsed {p : Nat × TrackEntry} (hp : p ∈ (lapsed a due s).tlm.entries) :
    ∃ x, (p.1, x) ∈ s.tlm.entries ∧ x.retained = p.2.retained ∧ (p.1 = a → p.2.state = .pass) := by
  rw [entries_lapsed] at hp
  obtain ⟨x, hx, hp2⟩ := mem_tableModify hp
  refine ⟨x, hx, ?_, fun ha => ?_⟩
  · rw [hp2]
    split <;> rfl
  · simp [hp2, ha, TrackEntry.toPass]

theorem entries_dropRetained_lapsed (hretained : ∀ p ∈ s.tlm.entries, p.2.retained = true ↔ p.1 = a)
    (hfree : ∀ tx, s.tlm.transaction = some tx → tx.address ≠ a) :
    (lapsed a due s).tlm.entries.filter (fun p => !goes (lapsed a due s).tlm p) = s.tlm.entries.filter (fun p => p.1 != a) := by
  rw [entries_lapsed]
  refine filter_tableModify_of_gone (fun p hp hpa => ?_) (fun p hp hpa => ?_)
  · rw [Bool.not_eq_false', goes_iff]
    exact ⟨(hretained p hp).mpr hpa, rfl, hfree⟩
  · rw [Bool.not_eq_true', ← Bool.not_eq_true, goes_iff]
    exact fun h => hpa ((hretained p hp).mp h.1)

/-- A retained entry that has lapsed goes at the end of the transaction that kept it (R119). -/
theorem tableGet_entriesAfter_lapsed {tx : Transaction} (hretained : ∀ p ∈ s.tlm.entries, p.2.retained = true ↔ p.1 = a)
    (ha : tx.address = a) (reply : Option Reply) : tableGet (entriesAfter tx reply (lapsed a due s)) a = none := by
  refine tableGet_eq_none_of_forall fun p hp hpa => ?_
  obtain ⟨hmem, hstays⟩ := List.mem_filter.mp hp
  obtain ⟨x, hx, hp2⟩ := mem_tableModify (k := tx.address) hmem
  obtain ⟨y, hy, hxretained, hxpass⟩ := retained_of_mem_lapsed hx
  rw [hp2, if_pos (hpa.trans ha.symm)] at hstays
  have hstate : (entryAfter tx.command reply (lapsed a due s).clocks.plantTime x).state = .pass := by
    have hxstate : x.state = .pass := hxpass hpa
    simp [entryAfter, hxstate]
  have hkept : (entryAfter tx.command reply (lapsed a due s).clocks.plantTime x).retained = true :=
    hxretained.symm.trans ((hretained _ hy).mpr hpa)
  simp [hstate, hkept] at hstays

end

theorem lapseForestalled_iff (s : State) (a : Nat) : lapseForestalled s a = true ↔
    (∃ tx level hold, s.tlm.transaction = some tx ∧ tx.address = a ∧ tx.command = .step level hold)
      ∨ ∃ x, s.search.record = some x ∧ ((x.legs[x.current]?).map (·.address)).getD 0 = a ∧ (x.state = .settle ∨ x.state = .measure) := by
  have hstep (c : TlmCommand) : (match c with | .step _ _ => true | _ => false) = true ↔ ∃ level hold, c = .step level hold := by
    cases c <;> simp
  simp only [lapseForestalled, Bool.or_eq_true, Option.any_eq_true, Bool.and_eq_true, beq_iff_eq]
  refine or_congr ⟨?_, ?_⟩ Iff.rfl
  · rintro ⟨tx, htx, ha, hc⟩
    obtain ⟨level, hold, hc⟩ := (hstep tx.command).mp hc
    exact ⟨tx, level, hold, htx, ha, hc⟩
  · rintro ⟨tx, level, hold, htx, ha, hc⟩
    exact ⟨tx, htx, ha, (hstep tx.command).mpr ⟨level, hold, hc⟩⟩

/-! ## What the search makes of a lapse (R130, R131, R138) -/

section
variable {x : SearchRecord} {l : Leg} {a : Nat} {s : State} (hx : s.search.record = some x) (hl : x.legs[x.current]? = some l)
include hx hl

theorem searchLapse_of_other_leg (hne : l.address ≠ a) : searchLapse a s = s := by
  simp only [searchLapse, hx, currentAddress_of_leg hl]
  exact if_pos hne.symm

section
variable (ha : l.address = a)
include ha

theorem searchLapse_of_releasing (hst : x.state = .releasing) : searchLapse a s =
    settle (takeUp s.map.elements s.tlm.entries 80 { x with current := x.current + 1 })
      { s with tlm := { s.tlm with searchRequest := none } } := by
  simp only [searchLapse, hx, currentAddress_of_leg hl, ha, hst, ne_eq, not_true, if_false, nextLeg, searchFuel, withdraw]

theorem searchLapse_of_releaseWait (hst : x.state = .releaseWait) : searchLapse a s =
    settle (takeUp s.map.elements s.tlm.entries 80 { x with current := x.current + 1 }) s := by
  simp only [searchLapse, hx, currentAddress_of_leg hl, ha, hst, ne_eq, not_true, if_false, nextLeg, searchFuel]

theorem searchLapse_of_ending {cause : SearchOutcome} (hst : x.state = .ending) (hcause : x.cause = some cause) :
    searchLapse a s = endSearch x cause x.head s := by
  simp only [searchLapse, hx, currentAddress_of_leg hl, ha, hst, ne_eq, not_true, if_false, hcause, Option.getD_some]

end

end

theorem searchLapse_of_other_state {x : SearchRecord} {a : Nat} {s : State} (hx : s.search.record = some x)
    (hst : x.state = .baseline ∨ x.state = .stepping ∨ x.state = .settle ∨ x.state = .measure) : searchLapse a s = s := by
  rcases hst with hst | hst | hst | hst <;> simp only [searchLapse, hx, hst, ite_self]

/-! ## The measure deadline (R128, R129) -/

section
variable {x : SearchRecord} {s : State} (hx : s.search.record = some x)
include hx

theorem measureExpiry_of_other_state (hsettle : x.state ≠ .settle) (hmeasure : x.state ≠ .measure) : measureExpiry s = s := by
  have hneither : ¬ (x.state = .settle ∨ x.state = .measure) := not_or.mpr ⟨hsettle, hmeasure⟩
  simp only [measureExpiry, hx, if_neg hneither]
  split <;> rfl

theorem exec_measureDeadline_of_other_state (hsettle : x.state ≠ .settle) (hmeasure : x.state ≠ .measure) :
    exec .measureDeadline s = .next s := by
  change inTurn measureExpiry s = .next s
  obtain ⟨-, hturn⟩ | ⟨-, hturn⟩ := inTurn_cases measureExpiry s
  · rw [hturn, measureExpiry_of_other_state hx hsettle hmeasure]
  · exact hturn

theorem measureExpiry_of_due {l : Leg} {due : Nat} (hdue : x.measureDeadline = some due)
    (hst : x.state = .settle ∨ x.state = .measure) (hl : x.legs[x.current]? = some l) : measureExpiry s =
      { s with
        clocks := { s.clocks with elapsed := max s.clocks.elapsed due }
        search := { s.search with
          record := some
            { x with
              state := .releasing, measureDeadline := none
              peakSum := if x.state = .measure then 0 else x.peakSum
              collected := if x.state = .measure then 0 else x.collected
              legs := x.legs.set x.current { l with cls := some .unknown, drop := none }
              unknowns := if x.unknowns.length < 4 then x.unknowns ++ [l.element] else x.unknowns } }
        tlm := { s.tlm with searchRequest := some { address := l.address, command := .release } } } := by
  have hlegs : (discardMeasure x).legs[(discardMeasure x).current]? = some l := by
    unfold discardMeasure
    split <;> exact hl
  simp only [measureExpiry, hx, hdue, if_pos hst, postRelease_classifyUnknown hlegs]
  unfold discardMeasure
  split <;> rfl

end

/-- Settles O45: the lapse of an entry, kept or taken away, what the search makes of it, and the measure deadline. -/
theorem deadlines : Obligations.Deadlines := by
  refine ⟨fun a due e s hquiet he hdue hbusy hnone hclear => ?_,
    fun a due e s hquiet he hdue hbusy _ hretained hfree hholds hclear => ?_,
    fun a due e tx s hquiet he hdue hbusy _ hretained htx ha hclear => ?_, lapseForestalled_iff, fun x l a s hx hl => ?_,
    fun x l due s hquiet hx hdue hst hl => (inTurn_of_quiet _ hquiet).trans (congrArg _ (measureExpiry_of_due hx hdue hst hl)),
    fun x s hx => exec_measureDeadline_of_other_state hx⟩
  · refine (inTurn_of_quiet _ hquiet).trans (congrArg _ (lapse_of_keeps he hdue hbusy hclear fun p hp hgoes => ?_))
    obtain ⟨y, hy, hsame, -⟩ := retained_of_mem_lapsed hp
    have hretained := ((goes_iff _ p).mp hgoes).1
    exact absurd (hnone _ hy) (by simp [hsame, hretained])
  · have hlapse : lapse a s = { lapsed a due s with tlm := dropRetained (lapsed a due s).tlm } :=
      (lapse_eq he hdue hbusy hclear).trans (if_neg (by simp [hholds]))
    rw [dropRetained_eq, entries_dropRetained_lapsed hretained hfree] at hlapse
    exact (inTurn_of_quiet _ hquiet).trans (congrArg _ hlapse)
  · refine ⟨(inTurn_of_quiet _ hquiet).trans (congrArg _ (lapse_of_keeps he hdue hbusy hclear fun p hp hgoes => ?_)),
      tableGet_entriesAfter_lapsed hretained ha⟩
    obtain ⟨y, hy, hsame, -⟩ := retained_of_mem_lapsed hp
    obtain ⟨hpretained, -, hfree⟩ := (goes_iff _ p).mp hgoes
    have hpa : p.1 = a := (hretained _ hy).mp (hsame.trans hpretained)
    exact hfree tx htx (ha.trans hpa.symm)
  · exact ⟨searchLapse_of_other_leg hx hl, searchLapse_of_releasing hx hl, searchLapse_of_releaseWait hx hl,
      fun cause ha hst hcause => searchLapse_of_ending hx hl ha hst hcause, searchLapse_of_other_state hx⟩

end Sys2Proof.Machine
end
